-- ==== Sys2Proof/Word.lean ====
section
/-! DEFINITION. Words, bytes and the fixed sets of names that the commands' operands use. -/

namespace Sys2Proof

/-- A byte of payload or memory. -/
abbrev Byte := BitVec 8

/-- A register word of the management bus (20 R426). -/
abbrev Word := BitVec 32

/-- A string of bytes, byte 0 first. -/
abbrev Bytes := List Byte

/-- The variants of the device (00 R3). -/
inductive Variant where
  | t1
  | t2
  | t4
  deriving DecidableEq, Repr

/-- The status codes (03 R79); code 0xF is reserved and has no name. -/
inductive Status where
  | ok | poison | partPoison | timeout | fenced | targetOff | domainDeny | xlateFault
  | absentUnit | aborted | abortLate | saturated | malformed | unreachable | linkFail
  deriving DecidableEq, Repr

end Sys2Proof
end

