-- ==== Sys2Proof/Syntax.lean ====
section
/-! DEFINITION. The packets and the 153 commands of the block, one constructor for each row of
spec/opcode_table.json. -/

namespace Sys2Proof

/-- The 256-bit packet header, field by field (03 R64). -/
structure Header where
  cls : BitVec 3 := 0
  vc : BitVec 1 := 0
  epoch : BitVec 1 := 0
  dmode : BitVec 2 := 0
  trace : BitVec 1 := 0
  domain : BitVec 6 := 0
  op : BitVec 6 := 0
  len : BitVec 6 := 1
  hops : BitVec 6 := 0
  status : BitVec 4 := 0
  kind : BitVec 4 := 0
  fmt : BitVec 4 := 0
  mark : BitVec 2 := 0
  echo : BitVec 2 := 0
  colour : BitVec 2 := 0
  tag : BitVec 12 := 0
  dest : BitVec 28 := 0
  src : BitVec 28 := 0
  seq : BitVec 16 := 0
  group : BitVec 12 := 0
  rport : BitVec 10 := 0
  bcnt : BitVec 13 := 0
  pmask : BitVec 4 := 0
  addr : BitVec 48 := 0
  /-- the reserved bits [205:204], [191:188], [159:156] and [76:68], which the check covers as sent -/
  rsv : BitVec 19 := 0
  hchk : BitVec 16 := 0
  deriving DecidableEq, Repr

/-- A whole packet: header, the bytes of the DATA area where the kind keeps something of its own
there (anchors, an op, a fault record: 03 R72), the AUX area, and the payload bytes. -/
structure Packet where
  hdr : Header := {}
  area : Bytes := []
  aux : BitVec 256 := 0
  body : Bytes := []
  deriving DecidableEq, Repr

/-- The sequencers that execute ops: a channel of a Core NI's TSQ (07 R161) or the FMU's stream
(07 R158), which is executed as one channel. -/
inductive Seqr where
  | tsq (port chan : Nat)
  | fmu
  deriving DecidableEq, Repr

/-- The two ends at which flits arrive: an input of a stop (+X 0, -X 1, +Y 2, -Y 3, local ports
4-7; 06 R148) or the receive side of an NI. -/
inductive LinkEnd where
  | stopIn (stop input : Nat)
  | niIn (port : Nat)
  deriving DecidableEq, Repr

/-- The units that management orders, faults and arming name (16 R352, 15 R339). -/
inductive UnitId where
  | fmu
  | slice (die : Nat)
  | stop (stop : Nat)
  | ni (port : Nat)
  deriving DecidableEq, Repr

/-- The commands of the block: the rows of spec/opcode_table.json, in the table's order.
Operands name the units an event happens at and carry what comes from outside the boundary. -/
inductive Instr where
  /-- R152 -/ | fipIssue (port : Nat) (op : BitVec 128)
  /-- R153 -/ | programFetch (port chan : Nat) (op : BitVec 128)
  /-- R162 -/ | nop (who : Seqr)
  /-- R168 -/ | lddTensor (port chan : Nat)
  /-- R168 -/ | lddSlotWrite (port chan : Nat) (desc : BitVec 512)
  /-- R153 -/ | lddProgram (port chan : Nat)
  /-- R182; `data`: the local-side bytes that a write or a local copy reads -/
  | move (port chan : Nat) (data : Bytes)
  /-- R185 -/ | movex (port chan : Nat) (data : Bytes)
  /-- R212; `data`: the source bytes when they are core-local -/
  | mcast (port chan : Nat) (data : Bytes)
  /-- R235; `anchors`: the byte vector of supplied anchors (R236) -/
  | reduce (port chan : Nat) (data anchors : Bytes)
  /-- R231 -/ | treeSetUp (port chan : Nat)
  /-- R232 -/ | treeJoin (port chan : Nat)
  /-- R232 -/ | treeLeave (port chan : Nat)
  /-- R173 -/ | signal (who : Seqr)
  /-- R174 -/ | wait (who : Seqr)
  /-- R174 -/ | waitTimeout (who : Seqr)
  /-- R162 -/ | fence (who : Seqr)
  /-- R176 -/ | abort (port : Nat)
  /-- R177 -/ | stamp (port chan : Nat)
  /-- R178 -/ | probe (port chan : Nat)
  /-- R178 -/ | probeWriteVisible (port chan : Nat)
  /-- R191 -/ | pretranslateWindow (port chan : Nat)
  /-- R191; `ans`: the walk answer as the translation service sends it -/
  | walkAnswer (port : Nat) (ans : Packet)
  /-- R132 -/ | niInject (port : Nat)
  /-- R89 -/ | stopHeadArrival (stop input vc : Nat)
  /-- R218 -/ | leafSlotExamine (stop input vc : Nat)
  /-- R219 -/ | leafReport (port : Nat)
  /-- R112; `noise`: the bit positions of the 1,128 that arrive wrong -/
  | flitReceive (at_ : LinkEnd) (noise : List Nat)
  /-- R114; the link is named by its receiving end -/
  | ackTimerExpiry (at_ : LinkEnd)
  /-- R115 -/ | linkSilenceTimeout (at_ : LinkEnd)
  /-- R77 -/ | answerConsume (port : Nat)
  /-- R195 -/ | initiatorTimeout (port : Nat) (red : Bool) (tag : BitVec 12) (seq : BitVec 16)
  /-- R173 -/ | sigAdd (port : Nat)
  /-- R203 -/ | targetRequest (port : Nat)
  /-- R203; TGT_RSP_ID, TGT_RSP_STAT, TGT_RSP_DATA -/
  | tgtLineResponse (port : Nat) (id : BitVec 8) (stat : BitVec 2) (data : Bytes)
  /-- R206; TGT_FLT_KIND, TGT_FLT_ADDR -/
  | scrubReport (port : Nat) (kind : BitVec 2) (line : BitVec 34)
  /-- R299 -/ | datAnswer (port : Nat)
  /-- R187; `data`: the bytes that core-local memory gives for a read -/
  | localMemRequest (port : Nat) (data : Bytes)
  /-- R194 -/ | withdrawalNotice (port : Nat) (notice : Packet)
  /-- R194 -/ | noticeRelease (port : Nat)
  /-- R446 -/ | directoryRequest (port : Nat)
  /-- R290 -/ | digestRead (req : Packet)
  /-- R231 -/ | treeRequest (die : Nat)
  /-- R231 -/ | treeRduConfirm (die stop : Nat)
  /-- R232 -/ | treeFreezeApply (die : Nat)
  /-- R238 -/ | rduContrib (stop input vc : Nat)
  /-- R240 -/ | rootResultReport (port : Nat)
  /-- R242 -/ | rdDoneConsume (port : Nat)
  /-- R254 -/ | rduHoldTimeout (stop buf : Nat)
  /-- R307 -/ | gwEgress (port : Nat)
  /-- R304 -/ | gwTransportHandoff (port : Nat)
  /-- R100 -/ | gwIngress (port : Nat) (pkt : Packet)
  /-- R258 -/ | gwRdDoneFanout (port : Nat)
  /-- R98; `req`: the request whose transport failed -/
  | transportFailure (port : Nat) (req : Packet)
  /-- R306; `ext`: an XCREDIT from a peer gateway, else one the fabric delivered -/
  | xcreditReceive (port : Nat) (ext : Option Packet)
  /-- R305 -/ | tokenIdleReturn (port target : Nat)
  /-- R314 -/ | sinkStall (stop output : Nat)
  /-- R314 -/ | tgtStall (port : Nat)
  /-- R314 -/ | gwStall (port : Nat)
  /-- R332 -/ | mgtOpReceive (unit : UnitId)
  /-- R297 -/ | mgtRspReceive (unit : UnitId)
  /-- R353 -/ | faultSend (unit : UnitId)
  /-- R356 -/ | faultEvaluate
  /-- R362 -/ | fabErrPulseEnd
  /-- R413 -/ | cntGatherReceive (stop : Nat)
  /-- R414 -/ | cntDataReceive (stop : Nat)
  /-- R332 -/ | stage
  /-- R335 -/ | check
  /-- R338 -/ | turn
  /-- R339; `good`: parity verified and, in a quiescing turn, X measured -/
  | unitArm (unit : UnitId) (good : Bool) (x : List Nat)
  /-- R340 -/ | armingDeadline
  /-- R340 -/ | unitDisarm (unit : UnitId)
  /-- R340 -/ | disarmDeadline
  /-- R341 -/ | turnCancel
  /-- R343 -/ | turnSwap
  /-- R342 -/ | turnOutcome
  /-- R345 -/ | drain
  /-- R346 -/ | drainSum
  /-- R346 -/ | drainTimeout
  /-- R286 -/ | portGate (port : Nat)
  /-- R282 -/ | fencePort
  /-- R282 -/ | openPort
  /-- R283 -/ | fenceDomain
  /-- R283 -/ | openDomain
  /-- R284 -/ | fencepComplete
  /-- R366 -/ | snapFreeze
  /-- R366 -/ | snapStop
  /-- R411 -/ | counterFreeze
  /-- R368 -/ | globalStop
  /-- R369 -/ | snapshotPublish
  /-- R370 -/ | resume
  /-- R373 -/ | spareWire
  /-- R374 -/ | spareRetrain
  /-- R374; `failed`: failed wires, `x`: the X measured on a bridge -/
  | retrainComplete (stop output : Nat) (good : Bool) (failed : List Nat) (x : Nat)
  /-- R375 -/ | spareBank
  /-- R376 -/ | spareSlice
  /-- R377 -/ | spareBypass
  /-- R377 -/ | spareRestore
  /-- R378 -/ | spareGateway
  /-- R379 -/ | spareTree
  /-- R287 -/ | powerOn
  /-- R285 -/ | powerOff
  /-- R287 -/ | portWake (port : Nat) (good : Bool)
  /-- R359 -/ | autoRepair
  /-- R392 -/ | fmuProgWrite (word : Word)
  /-- R38 -/ | milestoneBoundary
  /-- R46; the tick's phase against the local boundary, in fc -/
  | msTick (phase : Int)
  /-- R36; `late`: ended fewer than 64 REF_CLK cycles before its tick -/
  | countFrame (bits : BitVec 48) (late : Bool)
  /-- R49; the phase of the marker on trees A and B, none where it was not seen -/
  | treeMarker (die : Nat) (a b : Option Int)
  /-- R42 -/ | alignStart
  /-- R42; D0 counts at sending and receiving the echo, and at the load word -/
  | alignEcho (die a b c : Nat)
  /-- R45 -/ | alignEchoTimeout (die : Nat)
  /-- R42 -/ | timestampExchange (die : Nat) (t1 t2 t3 t4 : Int)
  /-- R403 -/ | alignFrameTimeout
  /-- R50 -/ | realign
  /-- R394; `failed`: wires that failed the pattern, `good`: no uncorrectable idle flit,
  `x`: the X measured on a bridge -/
  | linkTrainPhaseEnd (stop output : Nat) (failed : List Nat) (good : Bool) (x : Nat)
  /-- R389 -/ | fabPgChange (die : Nat) (high : Bool)
  /-- R389 -/ | fabRstAssert
  /-- R390 -/ | fabRstRelease
  /-- R390 -/ | pllLock (die : Nat)
  /-- R403 -/ | pllLockTimeout (die : Nat)
  /-- R402 -/ | pllUnlock (die : Nat)
  /-- R140 -/ | meterRefill
  /-- R144 -/ | queueSample
  /-- R419 -/ | opSample (port chan : Nat)
  /-- R288 -/ | digestPublish
  /-- R329 -/ | ndetPublish
  /-- R361 -/ | faultForce (unit : UnitId) (word : Word)
  /-- R45 -/ | skewAck (die : Nat)
  /-- R290 -/ | digestAck
  /-- R329 -/ | ndetAck
  /-- R349 -/ | chkAck
  /-- R349 -/ | turnStatAck
  /-- R349 -/ | drainStatAck
  /-- R364 -/ | flogAck
  /-- R371 -/ | snapStatAck
  /-- R387 -/ | wearLastAck
  /-- R411 -/ | frzAck
  /-- R414 -/ | boardAck
  /-- R433 -/ | busErrAck
  /-- R420 -/ | traceRptrWrite (die : Nat) (word : Word)
  /-- R437; `wdata`: none for a read -/
  | tblDataAccess (unit : UnitId) (wdata : Option Word)
  /-- R41 -/ | fccLoRead
  /-- R410 -/ | counterLoRead (addr : Nat)
  /-- R181 -/ | counterRecordRead (addr : Nat)
  /-- R324 -/ | dsrRead
  /-- R14 -/ | registerWrite (addr : Nat) (word : Word)
  /-- R427 -/ | busAccessTimeout (addr : Nat) (wr : Bool)
  /-- R444; `wdata`: none for a load -/
  | loadPathRequest (port engine : Nat) (addr bytes : Nat) (wdata : Option Bytes)
  /-- R201 -/ | lineRequestTaken (port : Nat)
  /-- R301 -/ | answerPoolRelease (port : Nat)
  /-- R231 -/ | treeDescriptorLoad (port chan : Nat) (desc : BitVec 512)
  /-- R197 -/ | tagHoldExpiry (port : Nat) (tag : BitVec 12)
  deriving DecidableEq, Repr

end Sys2Proof
end

