-- ==== Sys2Proof/Decode.lean ====
section
/-! DEFINITION. The table gives no row bits (spec/opcode_table.json): no word spells a command. -/

namespace Sys2Proof

/-- The command a word of the table spells: none, since no row of the table has bits.
DESIGN CHOICE (log entry 11). -/
def decodeTableWord (_nbits _w : Nat) : Option Instr := none

end Sys2Proof
end

