-- ==== Sys2Proof/Config.lean ====
section
/-! DEFINITION. What the specification leaves open: the free values (guide; log entry 6). -/

namespace Sys2Proof.Config

/-- A value the specification does not state, of `w` bits: the `n`-th one drawn in a run.
It has no body, so nothing can be proved of its value. DESIGN CHOICE (log entry 6). -/
opaque freeValue (w : Nat) (n : Nat) : BitVec w

/-- Bits of a snapshot that the specification does not state: what a buffered flit keeps of its control
field besides type, class and VC, and fields it gives no value in some states (20 R440, R441); by the
instant of the stop and the place in the snapshot. DESIGN CHOICE (log entry 6). -/
opaque snapFree (w instant place : Nat) : BitVec w

end Sys2Proof.Config
end

