-- ==== Sys2Proof/Machine/State.lean ====
section
/-! DEFINITION. The state of the fabric: every piece of state the specification names, as plain
data, unit by unit; and the state after reset (18 R389). -/

namespace Sys2Proof.Machine

/-- A table keyed by number, keys rising; a key that is not listed holds the reset value. -/
abbrev NMap (α : Type) := List (Nat × α)

/-- A table of register words. -/
abbrev WMap := NMap Word

/-- Bytes the fabric has written to core-local memory, addresses strictly rising. DESIGN CHOICE (log entry 5). -/
abbrev Mem := List Host.Cell

/-! ## Faults (16 R352-R354) -/

/-- The fault kinds (16 R354). -/
inductive FaultKind where
  | tickMiss | tickPhase | mscMismatch | mscFrame | treeFail | alignFail | timeRefused
  | frameErr | hdrCheck | hopLimit | truncated | creditOverrun | linkRetry | linkWithdrawn
  | bufParity | rspDrop | sigDrop | rspUnmatched | rspDomain | rspTimeout | scrubPoison
  | readPoison | mcProtocol | xlateProtocol | opPriv | fenceInj | regionDeny | mcLeafDrop
  | mcRelayFail | rduTimeout | rduAnchor | rduDomain | treeBroken | rdRelayFail | sinkStall
  | tgtStall | gwStall | xcreditOverrun | xcreditSeq | pwrHold | pwrWakeFail | turnFail
  | turnDisarmLost | drainStuck | guaranteeShed
  deriving DecidableEq, Repr

/-- A fault record (03 R74); a code of a reserved kind can only come in a forced record. -/
structure FaultRec where
  srcid : BitVec 16
  fkind : BitVec 8
  fclass : BitVec 8
  sev : BitVec 3 := 0
  info : BitVec 48
  stamp : BitVec 64
  deriving DecidableEq, Repr

/-- The faults a unit has raised and not yet sent (16 R353; 06 R134; 18 R393). -/
structure FaultQ where
  waiting : List FaultRec := []
  credit : Nat := 65536
  /-- forced faults held while the package is stopped (16 R368) -/
  held : List Word := []
  deriving DecidableEq, Repr

/-! ## Configuration (15 R331) -/

/-- The staged state of one unit. Registers are keyed by block offset, tables by
`table·2^24 + index`. `Stg` maps list the writes waiting for the next turn, `Dfr` those deferred
to the turn after (R333). -/
structure CfgStore where
  regs : WMap := []
  regsStg : WMap := []
  regsDfr : WMap := []
  tabs : WMap := []
  tabsStg : WMap := []
  ep0 : WMap := []
  ep1 : WMap := []
  deriving DecidableEq, Repr

/-- The table-access window of a block and its entry hold register (20 R437, R439). -/
structure Window where
  sel : Word := 0
  heldKey : Option Nat := none
  held : List Word := []
  deriving DecidableEq, Repr

/-! ## Packets in buffers -/

/-- A flit as a link carries it: data and control bits (03 R60). Check bits are computed when it
is sent. -/
structure Flit where
  d : BitVec 1024 := 0
  c : BitVec 64 := 0
  /-- the epoch of its packet, as the sender's residue counts keep it (15 R344); not on the link -/
  ep : BitVec 1 := 0
  /-- the sideband of the flit: INJ_DIR towards a stop (04 R85), MCE_ID towards an NI (09 R219) -/
  side : BitVec 4 := 0
  /-- when it reached the retiming line of a bridge (06 R137) -/
  at_ : Nat := 0
  deriving DecidableEq, Repr

/-- One copy of a packet that leaves a buffer on `out` (04 R89; 09 R215, R216). -/
structure Branch where
  out : Nat
  hdr : Header
  aux : BitVec 256
  headSent : Bool := false
  sent : Nat := 0
  tailSent : Bool := false
  /-- its head took the ring-through path (05 R109) -/
  through : Bool := false
  /-- the branch waits for its copy's leaf slot (09 R219) -/
  wantsSlot : Bool := false
  slot : Option Nat := none
  /-- the copy will not be sent: the status its packet is answered with (05 R115) -/
  dead : Option Status := none
  deriving DecidableEq, Repr

/-- What a buffer does with the packet at its head. -/
inductive Route where
  /-- not yet examined -/
  | fresh
  /-- sent on by branches -/
  | go (bs : List Branch)
  /-- consumed in full; then the answer, if any, is injected (03 R80) -/
  | eat (answer : Option Packet)
  /-- taken by the RDU once it is complete (10 R238) -/
  | rdu
  /-- discarded up to its tail by a framing rule (03 R63) -/
  | drop
  deriving DecidableEq, Repr

/-- A packet held in a virtual channel's buffer. `body` lists the flits after the head that are
still in the buffer; `gone` counts those that have left. `taken` lists those that the NI or the RDU
that takes the packet has moved out of the buffer before its tail arrived, oldest first (log entry
152). -/
structure QPkt where
  hdr : Header
  pay : BitVec 768
  headHeld : Bool := true
  body : List (BitVec 1024) := []
  taken : List (BitVec 1024) := []
  gone : Nat := 0
  tailIn : Bool := false
  route : Route := .fresh
  at_ : Nat := 0
  /-- the sideband with the head: INJ_DIR towards a stop (04 R85), MCE_ID towards an NI (09 R219) -/
  side : BitVec 4 := 0
  deriving DecidableEq, Repr

/-! ## Links (05) -/

/-- The state of a link end (05 R127). -/
inductive LinkState where
  | training | up | withdrawn | joined
  deriving DecidableEq, Repr

/-- The sending end of a link direction (05 R104, R106, R113, R114, R119). VCs are numbered
`2·class + VC`. -/
structure LinkTx where
  state : LinkState := .training
  nextSeq : BitVec 8 := 0
  retry : List Flit := []
  /-- how many of the newest flits of `retry` are still to be sent again -/
  resend : Nat := 0
  ackAt : Option Nat := none
  /-- the sender has rewound since `LACK` last advanced (R114 rule 4) -/
  rewound : Bool := false
  run : Nat := 0
  retries : BitVec 12 := 0
  credits : NMap Int := []
  used : NMap Nat := []
  shared : Nat := 0
  /-- credit returns placed in IDLE flits: after which LSEQ, VC, count (R106 rule 4) -/
  idleRec : List (BitVec 8 × Nat × Nat) := []
  wire : List Flit := []
  /-- the packet open on each downstream VC: the input VC that holds it (R108) -/
  open_ : NMap Nat := []
  /-- the epoch of the packet last begun on each VC -/
  eps : NMap (BitVec 1) := []
  /-- withdrawn and being trained again (17 R374, R377); the state it comes up in -/
  retrain : Bool := false
  deriving DecidableEq, Repr

/-- The receiving end of a link direction (05 R104-R106, R114, R115). -/
structure LinkRx where
  lack : BitVec 8 := 255
  discarding : Bool := false
  lnak : Bool := false
  /-- credits applied from IDLE flits since the flit numbered `lack` -/
  idleApplied : List (Nat × Nat) := []
  /-- `LACK` at a detection whose retracted credits are still to be sent again (R106) -/
  retracted : Option (BitVec 8) := none
  /-- credits owed, oldest first: VC and count; a VC may stand in several places -/
  owed : List (Nat × Nat) := []
  lastIntact : Nat := 0
  run : Nat := 0
  corr : BitVec 12 := 0
  /-- VCs on which flits are discarded up to the next TAIL -/
  dropVc : List Nat := []
  pad : Option (BitVec 5) := none
  xMeas : Nat := 0
  /-- flits accepted into the landing buffer of a bridge (R119) -/
  landing : List Flit := []
  deriving DecidableEq, Repr

/-- The wear and training record of one ring input (17 R382, R386; 18 R394). -/
structure LinkWear where
  /-- spare wires in use: spare number and failed wire -/
  spares : List (Nat × Nat) := []
  wcount : NMap Nat := []
  wms : NMap Nat := []
  retriesMs : Nat := 0
  crossed : Bool := false
  attempt : Nat := 0
  phase : Nat := 0
  /-- a failed wire of this attempt found no spare (18 R395) -/
  unmapped : Bool := false
  deriving DecidableEq, Repr

/-- A Reduction Unit's partial buffer (10 R238, R440). -/
structure RduBuf where
  tree : BitVec 12
  seq : BitVec 16
  anchorPass : Bool
  entry : Nat
  merged : Nat := 0
  ncontrib : Nat := 0
  pcount : Nat := 0
  ecnt : Nat := 0
  eoff : BitVec 32 := 0
  anchors : Bytes := []
  elems : List Int := []
  echo : BitVec 2 := 0
  openedAt : Nat := 0
  hdr : Header
  deriving DecidableEq, Repr

/-- A completed chunk at a root, waiting for the root port's report (10 R240). -/
structure RootWait where
  slot : Nat
  entry : Nat
  pkt : Packet
  status : Status
  deriving DecidableEq, Repr

/-- A leaf slot of a stop (09 R219): a copy and the statuses reported by its ports. -/
structure LeafSlot where
  hdr : Header
  got : NMap Status := []
  root : Option RootWait := none
  deriving DecidableEq, Repr

/-- Counts a stop keeps for one output over the milestone (19 R413). -/
structure BoardCnt where
  flits : Nat := 0
  heads : Nat := 0
  mild : Nat := 0
  severe : Nat := 0
  retries : Nat := 0
  wear : Bool := false
  deriving DecidableEq, Repr

/-- A queue sample record: what is gathering and what is published (06 R144; 19 R409). -/
structure QSample where
  gMaxDelay : Nat := 0
  gMaxDepth : Nat := 0
  gSumDepth : Nat := 0
  gSumDelay : Nat := 0
  /-- words 0-2 of the published record; its `MSEQ` is the unit's -/
  words : List Word := [0, 0, 0]
  deriving DecidableEq, Repr

/-- Power states of a port (12 R281, R292). -/
inductive Pwr where
  | on | isolating | off | waking
  deriving DecidableEq, Repr

/-- What a stop holds for one local port (12 R292). -/
structure StopPort where
  pwr : Pwr := .on
  fence : Bool := false
  refused : BitVec 16 := 0
  deriving DecidableEq, Repr

/-- Arbitration state of a stop (05 R107; 06 R130). -/
structure Arb where
  outPtr : NMap Nat := []
  inPtr : NMap Nat := []
  deficits : NMap Nat := []
  cur : NMap Nat := []
  /-- when each output last sent a flit -/
  sentAt : NMap Nat := []
  late : BitVec 16 := 0
  deriving DecidableEq, Repr

/-- The RDU of a stop (10 R229, R238, R260). -/
structure Rdu where
  /-- words 1-7 of the Tree Table, keyed `8·e + w` -/
  tree : WMap := []
  bufs : NMap RduBuf := []
  merged : BitVec 16 := 0
  expired : BitVec 16 := 0
  ndet : Word := 0
  deriving DecidableEq, Repr

/-- Spares and parity records of a stop (17 R386). -/
structure StopSpare where
  slice : Option Nat := none
  /-- the fc of the slice's substitution: the crossbar grants nothing in it (17 R376) -/
  sliceAt : Option Nat := none
  sliceMs : NMap Nat := []
  bankVc : NMap Nat := []
  parity : NMap Nat := []
  bypass : Bool := false
  rowErr : BitVec 8 := 0
  rowLast : BitVec 8 := 0
  deriving DecidableEq, Repr

/-- What a stop measures (19 R409, R413; 06 R144). -/
structure StopObs where
  board : NMap BoardCnt := []
  captured : NMap BoardCnt := []
  samples : NMap QSample := []
  mseq : Word := 0
  sinkEpisode : List Nat := []
  sinkSince : NMap Nat := []
  traceQ : List (BitVec 256) := []
  /-- wear crossings of the milestone just ended: SPKIND, input, and wire, VC or slice (17 R382) -/
  crossings : List (Nat × Nat × Nat) := []
  deriving DecidableEq, Repr

/-- One stop (01 R20; 05; 06; 09; 10; 12; 17; 19). -/
structure Stop where
  cfg : CfgStore := {}
  win : Window := {}
  tx : NMap LinkTx := []
  rx : NMap LinkRx := []
  /-- input buffers, keyed `12·input + 2·class + VC` (05 R103); input 8 holds the packets the stop
  itself has built (03 R80; 10 R238) -/
  vq : NMap (List QPkt) := []
  arb : Arb := {}
  ports : NMap StopPort := []
  leaf : NMap LeafSlot := []
  mcMerged : BitVec 16 := 0
  rdu : Rdu := {}
  wear : NMap LinkWear := []
  spare : StopSpare := {}
  flt : FaultQ := {}
  obs : StopObs := {}
  deriving DecidableEq, Repr

/-! ## Network interfaces -/

/-- Why an Outstanding Request Table entry is open (03 R77). -/
inductive Purpose where
  | run (chan eid idx : Nat)
  | walk (chan eid win : Nat) (dom : BitVec 6) (page : BitVec 36)
  /-- lookups of an identifier or a group, and the epoch they are made under (04 R92; 09 R211) -/
  | dir (ident : BitVec 15) (ep : BitVec 1)
  | grp (group : BitVec 12) (ep : BitVec 1)
  | load (engine part : Nat)
  | tree (chan eid : Nat)
  | mcRun (chan eid idx : Nat)
  | mcRead (chan eid idx : Nat)
  | chunk (chan eid idx : Nat)
  | mcRelay
  | rdRelay (node : Nat) (tree : BitVec 12)
  deriving DecidableEq, Repr

/-- An Outstanding Request Table entry (03 R77; 08 R184, R195; 09 R223). -/
structure OrtEntry where
  tag : BitVec 12
  seq : BitVec 16
  dom : BitVec 6
  purpose : Purpose
  red : Bool := false
  req : Header
  die : Nat := 0
  charge : Nat := 0
  since : Nat
  limit : Nat
  /-- the Translation Cache entry it names -/
  tc : Option Nat := none
  /-- multicast: copies of the run still to be injected -/
  local_ : Nat := 0
  pool : Nat := 0
  /-- multicast: leaves acknowledged, remote answers awaited, gathered status and its INFO -/
  nack : Nat := 0
  need : Nat := 0
  fwdNeed : Nat := 0
  st : Status := .ok
  info : BitVec 48 := 0
  nfenced : Nat := 0
  lowfenced : BitVec 26 := BitVec.allOnes 26
  deriving DecidableEq, Repr

/-- A packet waiting in an injection queue, and what its answer is for. -/
structure OutPkt where
  pkt : Packet
  purpose : Option Purpose := none
  local_ : Nat := 0
  /-- the Translation Cache entry it names -/
  tc : Option Nat := none
  red : Bool := false
  /-- the first fc at which it may be sent, and whether its destination is resolved -/
  resolved : Bool := false
  dirWait : Bool := false
  /-- the epoch of the Route Cache hit that gave `port`; none where a directory answer did -/
  hit : Option (BitVec 1) := none
  /-- part of a split load whose checks were made with the first part's (01 R444) -/
  passed : Bool := false
  /-- the epoch it looks its identifier up under; the port the identifier names (04 R92, R93) -/
  missEp : BitVec 1 := 0
  port : Option Nat := none
  need : Nat := 0
  injDir : Option Nat := none
  at_ : Nat := 0
  deriving DecidableEq, Repr

/-- One run of a started data op: where it lies on both sides and its bytes (08 R183). -/
structure Run where
  addr : BitVec 64
  local_ : Nat
  bytes : Nat
  /-- bytes at the front that belong to a unit begun in the run before (R448) -/
  skip : Nat := 0
  win : Nat := 0
  data : Bytes := []
  done : Bool := false
  st : Status := .ok
  deriving DecidableEq, Repr

/-- A pre-translation window (08 R190-R192). -/
structure XWin where
  pages : List (BitVec 36)
  admitted : Bool := false
  looked : Bool := false
  waiting : List (BitVec 36) := []
  /-- pages whose answer makes the window a faulting one (R192) -/
  bad : List (BitVec 36) := []
  complete : Bool := false
  issued : Bool := false
  faulted : Bool := false
  /-- page to the cache entry it holds locked, and page to frame -/
  locks : NMap Nat := []
  frames : NMap (BitVec 20) := []
  deriving DecidableEq, Repr

/-- A chunk of a started REDUCE (10 R234, R236). -/
structure Chunk where
  k : Nat
  eoff : BitVec 32
  ecnt : Nat
  /-- where its bytes lie in the tile's byte stream -/
  off : Nat := 0
  len : Nat := 0
  data : Bytes := []
  anchors : Bytes := []
  pass : Nat := 0
  pcount : Nat := 0
  sent : Bool := false
  done : Bool := false
  deriving DecidableEq, Repr

/-- The progress of a started op. -/
structure Work where
  dom : BitVec 6 := 0
  src : BitVec 512 := 0
  dst : BitVec 512 := 0
  runs : List Run := []
  wins : List XWin := []
  chunks : List Chunk := []
  tags : List (BitVec 12) := []
  /-- packets made and not yet answered or refused; packets not yet injected -/
  outstanding : Nat := 0
  toInject : Nat := 0
  committed : Nat := 0
  st : Status := .ok
  info : BitVec 48 := 0
  infoSeq : Nat := 0
  nfenced : Nat := 0
  lowfenced : BitVec 26 := BitVec.allOnes 26
  entry : List Word := []
  /-- the epoch under which its group entry is looked up (09 R211) -/
  missEp : BitVec 1 := 0
  startAt : Nat := 0
  deriving DecidableEq, Repr

/-- An op in a channel queue (07 R161). -/
structure QEntry where
  eid : Nat
  op : BitVec 128
  started : Bool := false
  issued : Bool := false
  aborted : Bool := false
  work : Work := {}
  deriving DecidableEq, Repr

/-- A TSQ channel, or the FMU's stream, which is executed as one channel (07 R158, R161, R180). -/
structure Chan where
  queue : List QEntry := []
  halted : Bool := false
  reason : BitVec 4 := 0
  started : BitVec 16 := 0
  prog : Option (BitVec 32 × Nat) := none
  progOps : List Nat := []
  drejStat : BitVec 4 := 0
  drejOp : BitVec 6 := 0
  drejN : BitVec 16 := 0
  /-- an ABORT acted on and waiting for the last aborted op: its own op (07 R176) -/
  aborts : List (BitVec 128) := []
  /-- the fc in which the last op reached the point after which the next one may start (07 R162) -/
  passedAt : Option Nat := none
  deriving DecidableEq, Repr

/-- The fields of a completion counter (07 R170). -/
structure CtrRec where
  value : BitVec 48 := 0
  nbad : BitVec 12 := 0
  status : Status := .ok
  info : BitVec 48 := 0
  last : BitVec 48 := 0
  lseq : BitVec 16 := 0
  deriving DecidableEq, Repr

/-- A completion counter, with what landed in the fc `at_` of its last change: the additions, and the
record before a reset of that fc (07 R172). -/
structure Counter extends CtrRec where
  at_ : Nat := 0
  /-- channel, addend, status and information of each addition, oldest first -/
  late : List (Nat × BitVec 48 × Status × BitVec 48) := []
  /-- the channel whose completion of that fc gave `STATUS` and `INFO` -/
  giver : Option Nat := none
  was : Option CtrRec := none
  deriving DecidableEq, Repr

/-- The outputs of the Fabric Issue Port: FIP_RSP_VALID and FIP_RSP_STATUS, FIP_ACCEPT, and the status
that follows an accepted op in the next fc (07 R151). -/
structure FipRsp where
  valid : Bool := false
  status : Status := .ok
  accept : Bool := false
  next : Status := .ok
  deriving DecidableEq, Repr

/-- The Transfer Sequencer (07). -/
structure Tsq where
  chans : NMap Chan := []
  slots : NMap (BitVec 512) := []
  /-- slots written: the fc, and what the slot held before it (07 R168) -/
  slotWas : NMap (Nat × Option (BitVec 512)) := []
  ctrs : NMap Counter := []
  ctrHold : List Word := [0, 0, 0, 0, 0, 0, 0, 0]
  ctrHoldAt : Option Nat := none
  probeSeq : Nat := 0
  nextEid : Nat := 0
  fip : FipRsp := {}
  pendingAborts : List (BitVec 128) := []
  /-- cycles a channel was busy, stalled (0, 1) and stalled for reason r (2+r), keyed
  `16·chan + i`; the rest since `accFrom` it was idle (19 R408) -/
  acc : NMap Nat := []
  accFrom : Nat := 0
  deriving DecidableEq, Repr

/-- A Translation Cache entry (08 R188), named by a number of its own. Its use and lock counts are the
numbers of open requests and of windows that name it. -/
structure TcEntry where
  id : Nat := 0
  dom : BitVec 6
  page : BitVec 36
  frame : BitVec 20
  wp : Bool
  withdrawing : Bool := false
  stamp : Nat := 0
  deriving DecidableEq, Repr

/-- A cached answer of the directory service: identifier and port, or group and entry. -/
structure CacheEnt where
  key : Nat
  words : List Word
  epoch : BitVec 1
  stamp : Nat
  deriving DecidableEq, Repr

/-- The injection side of an NI (06 R132-R134, R140; 04 R86; 05 R124). -/
structure Inj where
  /-- waiting packets: 0-15 channels, 16 load path, 32+d a gateway's domain queues,
  100 MGT, 101 answers, 102 SIG, 103 walk and directory requests, 104 XCREDIT -/
  queues : NMap (List OutPkt) := []
  lfsr : BitVec 16 := 1
  ndet : Word := 0
  deficits : NMap Nat := []
  curGreen : Nat := 63
  curYellow : Nat := 63
  turns : NMap Nat := []
  ccMgt : Nat := 65536
  ccSig : Nat := 65536
  tc : NMap Nat := []
  tp : NMap Nat := []
  /-- domains held red and the queue whose head is held (R141) -/
  redHeld : NMap Nat := []
  /-- queues whose chosen head its window holds (R132) -/
  winHeld : List Nat := []
  /-- when each binding's last scheduled packet was injected (R135) -/
  schLast : NMap Nat := []
  /-- meter words and control-credit registers that stay in use up to the refill at (M, 256) after
  a turn that changes them (R142) -/
  meterOld : Option WMap := none
  ccOld : WMap := []
  /-- flits of the packet whose head has been injected: type, VC and data (R132) -/
  sending : List (BitVec 3 × Nat × BitVec 1024) := []
  deriving DecidableEq, Repr

/-- Injection windows, keyed by destination die (05 R124, R128). -/
structure WinState where
  win : NMap Nat := []
  infl : NMap Nat := []
  halves : NMap (BitVec 8) := []
  holdUntil : NMap Nat := []
  deriving DecidableEq, Repr

/-- Requests outstanding at an NI, its caches and tags (03 R76, R77; 04 R92; 08 R188, R197). -/
structure Initiator where
  ort : List OrtEntry := []
  nextTag : BitVec 12 := 0
  heldTags : List (BitVec 12 × Nat) := []
  rc : List CacheEnt := []
  gc : List CacheEnt := []
  gmiss : BitVec 16 := 0
  tcache : List TcEntry := []
  misses : BitVec 16 := 0
  walkQ : List (Nat × Nat × Nat) := []
  /-- the next number of a cache entry -/
  tcNext : Nat := 1
  /-- withdrawal notices in progress with the entry each withdraws, and those that wait (08 R193) -/
  notices : List (Packet × Nat) := []
  noticeWait : List Packet := []
  answered : BitVec 16 := 0
  pool : Nat := 0
  /-- answer flits in the pool, oldest first -/
  poolFlits : List (BitVec 1024) := []
  egCredit : NMap Int := []
  egCharged : NMap Nat := []
  stamp : Nat := 0
  /-- for each tree the lowest chunk whose RD_DONE has not been consumed, and consumed chunks above
  it (13 R308) -/
  redLow : NMap (Nat × List Nat) := []
  deriving DecidableEq, Repr

/-- A line request of a Target NI (08 R201, R203). -/
structure LineReq where
  id : Nat
  place : Nat
  idx : Nat
  write : Bool
  addr : BitVec 34
  ben : BitVec 128
  data : Bytes
  since : Nat
  taken : Bool := false
  deriving DecidableEq, Repr

/-- What a request place of a Target NI serves. -/
inductive PlaceKind where
  | request
  | mcCopy (slot : Nat)
  | rootResult (slot : Nat)
  | reread (dat : Nat)
  deriving DecidableEq, Repr

/-- A request in progress at a Target NI (08 R203). -/
structure Place where
  req : Header
  kind : PlaceKind := .request
  mark : BitVec 2 := 0
  lines : Nat
  /-- what its line requests do: write or read, from which address, which bytes; how many are made -/
  write : Bool := false
  addr : Nat := 0
  body : Bytes := []
  made : Nat := 0
  answered : Nat := 0
  got : NMap Bytes := []
  poison : Option (BitVec 34) := none
  part : Bool := false
  /-- the flits of the packet it holds (20 R441) -/
  flits : List (BitVec 1024) := []
  deriving DecidableEq, Repr

/-- A Deferred Answer Table entry (13 R299). -/
structure DatEntry where
  id : Nat
  fwd : Bool
  answer : Option Packet := none
  req : Header
  rereading : Bool := false
  deriving DecidableEq, Repr

/-- What a stack sends to its Target NI: a line response, or a scrubber report of a line (08 R201). -/
inductive StackIn where
  | line (id : BitVec 8) (stat : BitVec 2) (data : Bytes)
  | scrub (kind : BitVec 2) (line : BitVec 34)
  deriving DecidableEq, Repr

/-- A Target NI's own state (08 R201-R208; 12 R278; 13 R299, R305). -/
structure Target where
  /-- keyed by a running number, in the order of acceptance -/
  places : NMap Place := []
  nextPlace : Nat := 0
  lines : List LineReq := []
  dat : List DatEntry := []
  nextDat : Nat := 0
  granted : Nat := 0
  tokReqs : List (Nat × Nat) := []
  poisonRd : BitVec 16 := 0
  partWr : BitVec 16 := 0
  stallEpisode : Bool := false
  /-- responses and reports taken while the package is stopped, oldest first (16 R368) -/
  inbox : List StackIn := []
  deriving DecidableEq, Repr

/-- Why a gateway turns a packet of its transport away (06 R141; 13 R307). -/
inductive GwRefusal where
  | red | full
  deriving DecidableEq, Repr

/-- A Gateway NI's own state (13 R303-R307; 09 R224; 10 R257). -/
structure Gateway where
  egress : List (Packet × Nat) := []
  egUsed : Nat := 0
  /-- flits sent to each peer node and not yet returned (13 R304) -/
  peerCharged : NMap Nat := []
  inFrom : NMap Nat := []
  inUsed : Nat := 0
  inAnswers : Nat := 0
  /-- answers and credits on their way to the transport, oldest first, with their arrival -/
  toTransport : List (Packet × Nat) := []
  tokens : NMap Nat := []
  tokAsked : List Nat := []
  tokLast : NMap Nat := []
  /-- received multicasts in progress, by the tag of their copy; those that wait for their group
  entry by group and epoch -/
  relays : List (Nat × Packet) := []
  relayed : BitVec 16 := 0
  /-- how the packet last offered by the transport was turned away, if it was (06 R141; 13 R307) -/
  refused : Option GwRefusal := none
  stallEpisode : Bool := false
  egReserved : Nat := 0
  deriving DecidableEq, Repr

/-- Grant sequence numbers, keyed `4·port + kind`: next to send and next expected (13 R306). -/
structure Gseq where
  next : NMap Nat := []
  expect : NMap Nat := []
  deriving DecidableEq, Repr

/-- What an NI measures (19 R405-R409, R417, R422). -/
structure NiObs where
  cls : NMap Nat := []
  err : NMap Word := []
  lat : NMap Nat := []
  samples : NMap QSample := []
  mseq : Word := 0
  traceCnt : NMap Nat := []
  traceQ : List (BitVec 256) := []
  loHold : NMap Word := []
  deriving DecidableEq, Repr

/-- A load-path access in progress (01 R444). -/
structure LoadAcc where
  engine : Nat
  tag : BitVec 12
  addr : Nat
  bytes : Nat
  write : Bool
  need : Nat
  got : NMap Bytes := []
  st : Status := .ok
  deriving DecidableEq, Repr

/-- What a Core NI serves and returns (08 R187; 01 R444). -/
structure CoreSide where
  lm : Mem := []
  loads : List LoadAcc := []
  /-- answers returned to engines: engine, status, bytes -/
  engineRsp : List (Nat × Status × Bytes) := []
  deriving DecidableEq, Repr

/-- Fences, power and arming of an NI (12 R282-R287; 17 R387). -/
structure NiPwr where
  fence : Bool := false
  dfence : BitVec 64 := 0
  waking : Option Nat := none
  rowErr : BitVec 8 := 0
  rowLast : BitVec 8 := 0
  quiesce : Bool := false
  /-- the epoch the port was isolated in has been confirmed empty (12 R286) -/
  drained : Bool := false
  deriving DecidableEq, Repr

/-- One network interface (01 R21, R23). -/
structure Ni where
  cfg : CfgStore := {}
  win : Window := {}
  tx : LinkTx := {}
  rx : LinkRx := {}
  vq : NMap (List QPkt) := []
  inj : Inj := {}
  wnd : WinState := {}
  ini : Initiator := {}
  tsq : Tsq := {}
  core : CoreSide := {}
  tgt : Target := {}
  gw : Gateway := {}
  gseq : Gseq := {}
  obs : NiObs := {}
  pwr : NiPwr := {}
  flt : FaultQ := {}
  deriving DecidableEq, Repr

/-! ## The die slices -/

/-- Arming state of a die (20 R434). -/
inductive ArmState where
  | idle | arming | armed | refused | disarmed
  deriving DecidableEq, Repr

/-- A tree that is set up: the port that set it up, its descriptor and its Core NI members
(10 R230, R232). -/
structure TreeRec where
  owner : Nat
  desc : BitVec 512
  members : List Nat
  deriving DecidableEq, Repr

/-- A tree request at a slice (10 R231, R232). -/
structure TreeReq where
  req : Packet
  /-- stops still to confirm; what each one's words become -/
  confirm : List Nat := []
  words : List (Nat × List Word) := []
  /-- waits until no buffer of the tree is open -/
  freeze : Bool := false
  /-- what the tree is once every stop has confirmed; none where it is torn down -/
  result : Option TreeRec := none
  deriving DecidableEq, Repr

/-- The trace buffer of a die (19 R420). -/
structure Trace where
  wptr : BitVec 16 := 0
  rptr : BitVec 16 := 0
  lost : Word := 0
  owed : Nat := 0
  firstDrop : BitVec 60 := 0
  buf : NMap (BitVec 256) := []
  deriving DecidableEq, Repr

/-- An FMU die slice (20 R434; 02 R49). -/
structure DieSlice where
  win : Window := {}
  arm : ArmState := .idle
  swapped : Bool := false
  treeB : Bool := false
  treeRaised : Bool := false
  pllLocked : Bool := true
  resid : NMap Word := []
  fccHold : Word := 0
  trees : List TreeReq := []
  /-- the trees set up, by tree id -/
  recs : NMap TreeRec := []
  trace : Trace := {}
  flt : FaultQ := {}
  deriving DecidableEq, Repr

/-! ## The FMU -/

/-- Phases of alignment (02 R42). -/
inductive AlignPhase where
  | idle | waitTick | echo (die : Nat) | exchange (die : Nat) | done
  deriving DecidableEq, Repr

/-- A skew register (02 R45). -/
structure SkewReg where
  valid : Bool := false
  seq : BitVec 7 := 0
  attempts : BitVec 4 := 0
  skew : BitVec 4 := 0
  rtt : BitVec 16 := 0
  deriving DecidableEq, Repr

/-- Alignment in progress (02 R42, R45). -/
structure Align where
  phase : AlignPhase := .waitTick
  attempts : Nat := 1
  treeB : Bool := false
  rtt : Nat := 0
  /-- what the load word carries -/
  load : Nat := 0
  thetas : List Int := []
  /-- the dies' skews when the bridges' delays were last set (06 R137) -/
  was : NMap Int := []
  framesBad : Nat := 0
  deriving DecidableEq, Repr

/-- Time (02). `fcc` is D0's count, in 0.5 ns; `booked` the milestone whose bookkeeping ran. -/
structure Time where
  fcc : Nat := 0
  booked : Nat := 0
  skew : NMap Int := []
  fccHold : Word := 0
  aligned : Bool := false
  holdover : Bool := false
  treeB : Bool := false
  extValid : Bool := false
  missRun : Nat := 0
  phaseErr : Int := 0
  ext : BitVec 40 := 0
  offset : Int := 0
  treeForceB : Bool := false
  missLimit : BitVec 8 := 4
  phaseWin : BitVec 8 := 4
  /-- fabric cycles that have passed while the package was not stopped (19 R408) -/
  cycles : Nat := 0
  deriving DecidableEq, Repr

/-- Alignment, its results and the labelled frame waiting for its tick (02 R36, R42, R45, R46). -/
structure TimeAux where
  skews : NMap SkewReg := []
  align : Align := {}
  frame : Option (BitVec 40) := none
  tickSeen : Bool := false
  /-- the last instant at which the queues were sampled (06 R144) -/
  sampled : Option Nat := none
  deriving DecidableEq, Repr

/-- A published result with its valid bit, sequence number and words (00 R14; 15 R349). -/
structure Result where
  valid : Bool := false
  seq : BitVec 7 := 0
  words : List Word := []
  deriving DecidableEq, Repr

/-- Bring-up (18). -/
structure Boot where
  pg : BitVec 4 := 0xF
  rstN : Bool := true
  latch : BitVec 4 := 4
  fail : Bool := false
  lost : Bool := false
  lastFail : Bool := false
  crawl : Bool := true
  done : Bool := false
  reason : BitVec 8 := 0
  die : BitVec 2 := 0
  info : BitVec 16 := 0
  ms : WMap := []
  /-- the fabric is held in reset (R389) -/
  inReset : Bool := false
  deriving DecidableEq, Repr

/-- The program FIFO of the FMU and its registers (18 R392, R404). -/
structure Prog where
  fifo : List (BitVec 128) := []
  part : List Word := []
  ovf : Bool := false
  done : BitVec 16 := 0
  open_ : Bool := false
  deriving DecidableEq, Repr

/-- A staged action (15 R331; 17 R372; 12 R285). -/
inductive Action where
  | spare (kind unit : Nat) (spec : Word)
  | power (port : Nat) (on : Bool)
  deriving DecidableEq, Repr

/-- A turn's progress (15 R338-R342, R351). -/
structure Turn where
  tseq : BitVec 16 := 0
  epoch : BitVec 1 := 0
  writable : Bool := true
  checked : Bool := false
  sealed_ : Bool := false
  m : BitVec 40 := 0
  disarming : Bool := false
  /-- units that have confirmed, refused, and confirmed their disarm -/
  confirmed : List UnitId := []
  refused : List UnitId := []
  disarmed : List UnitId := []
  cancelled : Bool := false
  notReady : Option Nat := none
  deadlinePassed : Bool := false
  swapped : Bool := false
  /-- how the turn fails: status and information (15 R342) -/
  fail : Option (Status × BitVec 48) := none
  /-- TURN_DISARM_LOST has been raised for it (15 R340) -/
  lost : Bool := false
  ungated : List Nat := []
  quiescing : Bool := false
  /-- no turn has swapped yet; epoch 0 still routes by default hop logic (04 R101) -/
  first : Bool := true
  def0 : Bool := true
  deriving DecidableEq, Repr

/-- DRAIN in progress and the epochs confirmed empty (15 R345, R346). -/
structure Drain where
  epoch : Option (BitVec 1) := none
  left : Nat := 0
  sampled : Option Nat := none
  /-- the residue of each unit at the last boundary, largest first -/
  where_ : Word := 0
  confirmed0 : Bool := false
  confirmed1 : Bool := true
  actions : List Action := []
  deriving DecidableEq, Repr

/-- An entry of the Escalation Table (16 R356). -/
structure EscEntry where
  srcid : BitVec 16
  cls : BitVec 4
  adj : Nat := 0
  unack : Nat := 0
  qrun : Nat := 0
  gen : Nat := 0
  /-- its place in the table (20 R442) -/
  slot : Nat := 0
  deriving DecidableEq, Repr

/-- A log entry (16 R363): the record, its severities, owner, and the escalation entry counted. -/
structure LogEntry where
  rec_ : FaultRec
  tabSev : BitVec 3
  esc : Bool
  owner : Option (BitVec 6)
  seq : BitVec 16
  gen : Option Nat := none
  deriving DecidableEq, Repr

/-- A repair on the Repair List (16 R359; 20 R442). -/
structure Repair where
  rkind : BitVec 4
  unit : BitVec 10
  spec : Word
  detour : Bool := false
  /-- its detours are staged -/
  detoured : Bool := false
  staged : Bool := false
  /-- its place in the list (20 R442) -/
  slot : Nat := 0
  deriving DecidableEq, Repr

/-- Fault evaluation (16). -/
structure FaultState where
  sevTab : WMap := []
  clsTab : WMap := []
  esc : List EscEntry := []
  gen : Nat := 0
  counts : NMap (BitVec 16) := []
  repairs : List Repair := []
  log : List LogEntry := []
  logSeq : BitVec 16 := 0
  headSeq : BitVec 7 := 0
  lost : BitVec 16 := 0
  displaced : BitVec 16 := 0
  /-- the entry last acknowledged: what an empty log presents with `VALID` = 0 (00 R14) -/
  lastLog : Option LogEntry := none
  auto : Bool := false
  arrived : List FaultRec := []
  rcnt : NMap (BitVec 16) := []
  heldFences : List (Bool × Nat) := []
  deriving DecidableEq, Repr

/-- FAB_ERR_N (16 R362). -/
structure ErrPin where
  level : Bool := true
  pulses : BitVec 16 := 0
  pulseEnd : Option Nat := none
  deriving DecidableEq, Repr

/-- Freezes and stops (16 R366-R371). -/
structure StopCtl where
  freezeAt : Option Nat := none
  stopAt : Option (Nat × Bool) := none
  stopped : Bool := false
  cause : Bool := false
  lastAt : Nat := 0
  /-- the instant from which everything stands still (16 R368) -/
  frozeAt : Nat := 0
  resumeAt : Option Nat := none
  publish : Bool := false
  deriving DecidableEq, Repr

/-- Published results of the FMU (12 R292; 14 R329; 15 R351; 16 R371; 17 R387; 19 R424). -/
structure Results where
  dig : Result := {}
  ndet : Result := {}
  chk : Result := {}
  turn : Result := {}
  drain : Result := {}
  snap : Result := {}
  wear : Result := {}
  frz : Result := {}
  board : Result := {}
  deriving DecidableEq, Repr

/-- A Configuration Digest being computed: its event, and the message of the configuration as at
the event (12 R288, R289). -/
structure DigRun where
  cause : BitVec 2
  fcc : Nat
  tseq : BitVec 16
  epoch : BitVec 1
  msg : Bytes
  deriving DecidableEq, Repr

/-- Digests and the Determinism Settings Record (12 R288; 14 R324-R326). -/
structure DigestState where
  running : Option DigRun := none
  waiting : Option DigRun := none
  rw : WMap := []
  ro : WMap := []
  dsrValid : Bool := false
  /-- the FCC of the last turn swap: values of an earlier event are not valid (14 R326) -/
  dsrAt : Nat := 0
  gmis : Bool := false
  dsrHold : List Word := []
  /-- captures of the nondeterminism counts not yet published: source, milestone, sums (14 R329) -/
  ndetCaps : List (Bool × Nat × Word × Word) := []
  deriving DecidableEq, Repr

/-- The traffic boards (19 R414) and wear records. -/
structure Boards where
  presented : NMap (NMap BoardCnt) := []
  filling : Option (Nat × NMap (NMap BoardCnt)) := none
  gathering : Option Nat := none
  gathered : NMap (NMap BoardCnt) := []
  missed : Nat := 0
  noSpare : BitVec 10 := 0
  live : Bool := false
  deriving DecidableEq, Repr

/-- Orders and answers of the service road between the FMU or a slice and a unit (13 R297). -/
inductive Order where
  | stage (eid : Nat) (offset : Word) (data : Word) (op : BitVec 128)
  | fencePort (port : Nat) (on : Bool)
  | fenceDom (dom : Nat) (on : Bool)
  | tree (die : Nat) (stop : Nat) (words : List Word)
  | gather (ms : Nat)
  deriving DecidableEq, Repr

/-- The service road (13 R297): orders on their way, answers on their way, and what each stream op
still waits for. -/
structure Road where
  orders : List (UnitId × Order) := []
  answers : List (UnitId × Order) := []
  /-- a CONTAIN fence waits for its confirmations (16 R358) -/
  contain : Bool := false
  deriving DecidableEq, Repr

/-- The node management bus: the last access's result and the bus error registers (20 R426-R433). -/
structure Bus where
  rdata : Word := 0
  err : Bool := false
  errValid : Bool := false
  errSeq : BitVec 7 := 0
  errCause : BitVec 2 := 0
  errWr : Bool := false
  errCount : BitVec 16 := 0
  errAddr : Word := 0
  scratch : Word := 0
  deriving DecidableEq, Repr

/-- The Fabric Management Unit. -/
structure Fmu where
  win : Window := {}
  cfg : CfgStore := {}
  prog : Prog := {}
  chan : Chan := {}
  ctrs : NMap Counter := []
  ctrHold : List Word := [0, 0, 0, 0, 0, 0, 0, 0]
  ctrHoldAt : Option Nat := none
  nextEid : Nat := 0
  turn : Turn := {}
  drain : Drain := {}
  fault : FaultState := {}
  pin : ErrPin := {}
  stop : StopCtl := {}
  res : Results := {}
  dig : DigestState := {}
  boards : Boards := {}
  road : Road := {}
  dfence : BitVec 64 := 0
  /-- substitutions in force: SPKIND, UNIT, INDEX and SPEC (17 R384) -/
  spares : List (Nat × Nat × Nat × Word) := []
  /-- committed rates shed and not refilled since: port and domain (06 R145) -/
  shed : List (Nat × Nat) := []
  deriving DecidableEq, Repr

/-- Every unit as at an instant: what a snapshot (16 R369) or a frozen view (19 R411) is read from. -/
structure View where
  fcc : Nat
  cycles : Nat
  skew : NMap Int
  fmu : Fmu
  dies : NMap DieSlice
  stops : NMap Stop
  nis : NMap Ni
  deriving DecidableEq, Repr

/-- The whole fabric. -/
structure Fabric where
  variant : Variant := .t4
  time : Time := {}
  taux : TimeAux := {}
  boot : Boot := {}
  bus : Bus := {}
  fmu : Fmu := {}
  dies : NMap DieSlice := []
  stops : NMap Stop := []
  nis : NMap Ni := []
  /-- the record of the last global stop (16 R369; 20 R440, R441) -/
  snap : Option View := none
  /-- the frozen view of the observability counters while it is held (19 R411) -/
  frz : Option View := none
  /-- how many free values have been drawn (the model's own; log entry 6) -/
  freeCtr : Nat := 0
  deriving DecidableEq, Repr

/-- The state of the block: the commands waiting, first in first out, and the fabric. -/
structure State where
  pending : List Instr := []
  fab : Fabric := {}
  deriving DecidableEq, Repr

/-- What stops the block. No command of the specification does: every fault the fabric reports is
an effect on its state. -/
inductive Fault where
  /-- raised by no command; safe -/
  | none
  deriving DecidableEq, Repr

/-- What the model does not answer. -/
inductive Refusal where
  /-- the command has no meaning in the model yet; safe -/
  | notModelled (mnemonic : String)
  deriving DecidableEq, Repr

/-- The block right after reset release (18 R389-R391): nothing waits, every unit holds its reset
values, the rails are good, the PLLs are locked and bring-up waits for its first labelled tick
(log entries 7 and 8). DESIGN CHOICE (log entry 7). -/
def State.reset : State := {}

end Sys2Proof.Machine
end

