-- ==== Sys2Proof/Machine/Geometry.lean ====
section
/-! DEFINITION. The lattice: dies, stops, ports, attachments and addresses of each variant
(00 R3, R9-R11; 01 R17-R26). -/

namespace Sys2Proof.Machine

/-- Dies of a variant (00 R3). -/
def nDies : Variant → Nat
  | .t1 => 1 | .t2 => 2 | .t4 => 4
/-- Stops of a variant (00 R3). -/
def nStops (v : Variant) : Nat := 64 * nDies v
/-- Ports of a variant (00 R3). -/
def nPorts (v : Variant) : Nat := 256 * nDies v
/-- Stops on a row ring, W (01 R17). -/
def ringW : Variant → Nat
  | .t1 => 8 | .t2 => 16 | .t4 => 16
/-- Stops on a column ring, D (01 R17). -/
def ringD : Variant → Nat
  | .t1 => 8 | .t2 => 8 | .t4 => 16
/-- Whether the variant has RDUs and the SCH class (00 R3). -/
def hasRdu (v : Variant) : Bool := v != .t1
/-- Whether the variant has trace capture (00 R3). -/
def hasTrace (v : Variant) : Bool := v == .t4

/-- Die, local x and local y of a stop number (00 R10). -/
def dieOfStop (s : Nat) : Nat := s / 64
def lxOf (s : Nat) : Nat := s % 8
def lyOf (s : Nat) : Nat := s / 8 % 8
/-- Package coordinates of a stop number (00 R9, R10). -/
def xOf (s : Nat) : Nat := 8 * (dieOfStop s % 2) + lxOf s
def yOf (s : Nat) : Nat := 8 * (dieOfStop s / 2) + lyOf s
/-- The stop at package coordinates (00 R9, R10). -/
def stopAt (x y : Nat) : Nat := 64 * (x / 8 + 2 * (y / 8)) + 8 * (y % 8) + x % 8
/-- Stop, local index and die of a port number (00 R11). -/
def stopOfPort (p : Nat) : Nat := p / 4
def localOfPort (p : Nat) : Nat := p % 4
def dieOfPort (p : Nat) : Nat := p / 256

/-- The neighbour of a stop over ring output 0 +X, 1 -X, 2 +Y, 3 -Y (01 R17). -/
def neighbour (v : Variant) (s out : Nat) : Nat :=
  let w := ringW v
  let d := ringD v
  match out with
  | 0 => stopAt ((xOf s + 1) % w) (yOf s)
  | 1 => stopAt ((xOf s + w - 1) % w) (yOf s)
  | 2 => stopAt (xOf s) ((yOf s + 1) % d)
  | _ => stopAt (xOf s) ((yOf s + d - 1) % d)

/-- Whether a ring output crosses to another die (01 R18). -/
def isBridge (v : Variant) (s out : Nat) : Bool :=
  dieOfStop s != dieOfStop (neighbour v s out)

/-- Whether a ring output is a wrap link (01 R17; 04 R90). -/
def isWrap (v : Variant) (s out : Nat) : Bool :=
  match out with
  | 0 => xOf s + 1 == ringW v
  | 1 => xOf s == 0
  | 2 => yOf s + 1 == ringD v
  | 3 => yOf s == 0
  | _ => false

/-- The output opposite to a ring output: +X and -X, +Y and -Y. -/
def opposite (o : Nat) : Nat := if o % 2 == 0 then o + 1 else o - 1

/-- The kinds of NI, as `NI_ID.KIND` codes (01 R21, R23), before any substitution. -/
def baseKind (v : Variant) (p : Nat) : Nat :=
  if p ≥ nPorts v then 0 else
  let s := stopOfPort p
  let x := lxOf s
  let y := lyOf s
  match localOfPort p with
  | 0 => 1
  | 1 => 1
  | 2 => 2
  | _ =>
    if y == 0 || y == 7 then 3
    else if (x == 0 || x == 7) && (y == 1 || y == 6) then 8
    else if x == 3 && y == 3 then 4
    else if x == 4 && y == 3 then 5
    else if y == 4 && (x == 3 || x == 4) then 6
    else if x == 2 && y == 3 && dieOfStop s == 0 then 7
    else 0

/-- The gateway index of a Gateway NI's local stop (01 R22). -/
def gwIndex (s : Nat) : Nat := 8 * (lyOf s / 7) + lxOf s

/-- The port of a die's Gateway NI of an index, before substitution (01 R22). -/
def gwPortOf (die idx : Nat) : Nat :=
  4 * (64 * die + 8 * (7 * (idx / 8)) + idx % 8) + 3

/-- Core within die served by a Core NI port (01 R25). -/
def coreInDie (p : Nat) : Nat :=
  let s := stopOfPort p
  8 * (4 * (lyOf s / 2) + lxOf s / 2) + (2 * (2 * (lyOf s % 2) + lxOf s % 2) + localOfPort p)

/-- Stack within die and target-port index of a Target NI's stop (01 R26). -/
def stackInDie (s : Nat) : Nat := lxOf s / 4 + 2 * (lyOf s / 4)
def targetIndex (s : Nat) : Nat := lxOf s % 4 + 4 * (lyOf s % 4)
/-- The stack a Target NI port serves (01 R26). -/
def stackOfPort (p : Nat) : Nat := 4 * dieOfPort p + stackInDie (stopOfPort p)

/-- `UNIT` of `NI_ID` (01 R23). -/
def baseUnit (v : Variant) (p : Nat) : Nat :=
  match baseKind v p with
  | 1 => coreInDie p
  | 2 => 16 * stackInDie (stopOfPort p) + targetIndex (stopOfPort p)
  | 3 => gwIndex (stopOfPort p)
  | _ => 0

/-- Bytes of one stack that are populated, 80 GB, and the bytes of a stack's window (01 R26). -/
def stackBytes : Nat := 80000000000
def stackWindow : Nat := 2 ^ 37

/-- The target port of a physical address (01 R26). -/
def portOfPa (pa : Nat) : Nat :=
  let st := pa / 2 ^ 37 % 16
  let i := pa / 2 ^ 12 % 16
  let q := st % 4
  let s := 64 * (st / 4) + 8 * (4 * (q / 2) + i / 4) + (4 * (q % 2) + i % 4)
  4 * s + 2

/-- Whether a physical address is populated in the variant (01 R27). -/
def paPopulated (v : Variant) (pa : Nat) : Bool :=
  pa < 2 ^ 41 && pa / 2 ^ 37 < 4 * nDies v && pa % 2 ^ 37 < stackBytes

/-- Service ports of a die (01 R21). -/
def dirPort (die : Nat) : Nat := 4 * (64 * die + 27) + 3
def slicePort (die : Nat) : Nat := 4 * (64 * die + 28) + 3
def xlatPortA (die : Nat) : Nat := 4 * (64 * die + 35) + 3
def xlatPortB (die : Nat) : Nat := 4 * (64 * die + 36) + 3
/-- The security unit's port, and the FMU's (01 R21). -/
def securityPort : Nat := 4 * 26 + 3
def fmuPort : Nat := slicePort 0

/-- The translation-service port an NI uses (08 R191). -/
def walkPort (p : Nat) : Nat :=
  if lxOf (stopOfPort p) < 4 then xlatPortA (dieOfPort p) else xlatPortB (dieOfPort p)

/-- The two ring distances: links in the rising and the falling direction. -/
def ringUp (w a b : Nat) : Nat := (b + w - a) % w

/-- The class codes (01 R28). -/
def clsMGT : Nat := 0
def clsSCH : Nat := 1
def clsREQ : Nat := 2
def clsRSP : Nat := 3
def clsCOL : Nat := 4
def clsFWD : Nat := 5

/-- Depth of one VC, by VC number `2·class + VC` (05 R103). -/
def vcDepth (v : Nat) : Nat := if v < 4 then 4 else 8

end Sys2Proof.Machine
end

