-- ==== Sys2Proof/Machine/Ops.lean ====
section
/-! DEFINITION. The operations every meaning is built from: tables, memory, units, results,
time, and how a command's effect enters the state. -/

namespace Sys2Proof.Machine

/-! ## Tables -/

/-- The entry of a key, if listed. -/
def NMap.find? {α : Type} : NMap α → Nat → Option α
  | [], _ => none
  | (a, x) :: m, k => if a = k then some x else NMap.find? m k

/-- The entry of a key, or the default. -/
def NMap.get {α : Type} (m : NMap α) (k : Nat) (d : α) : α :=
  match m.find? k with
  | some x => x
  | none => d

/-- Write an entry, keys kept rising. -/
def NMap.put {α : Type} : NMap α → Nat → α → NMap α
  | [], k, x => [(k, x)]
  | (a, y) :: m, k, x =>
    if a = k then (k, x) :: m
    else if k < a then (k, x) :: (a, y) :: m
    else (a, y) :: NMap.put m k x

/-- Remove an entry. -/
def NMap.del {α : Type} : NMap α → Nat → NMap α
  | [], _ => []
  | (a, y) :: m, k => if a = k then NMap.del m k else (a, y) :: NMap.del m k

/-- Change an entry. -/
def NMap.upd {α : Type} (m : NMap α) (k : Nat) (d : α) (g : α → α) : NMap α :=
  m.put k (g (m.get k d))

/-- Change every listed entry. -/
def NMap.mapAll {α : Type} (m : NMap α) (g : Nat → α → α) : NMap α :=
  m.map fun e => (e.1, g e.1 e.2)

/-- Write all entries of `n` over `m`. -/
def NMap.over {α : Type} (m n : NMap α) : NMap α :=
  n.foldl (fun acc e => acc.put e.1 e.2) m

/-! ## Core-local memory the fabric has written (08 R199; log entry 5) -/

/-- Write one byte, addresses kept strictly rising. -/
def Mem.putByte : Mem → Nat → Byte → Mem
  | [], a, b => [(a, b)]
  | (c, d) :: m, a, b =>
    if c = a then (a, b) :: m
    else if a < c then (a, b) :: (c, d) :: m
    else (c, d) :: Mem.putByte m a b

/-- The byte at an address, none where the fabric has written nothing. -/
def Mem.read (m : Mem) (a : Nat) : Option Byte :=
  match m with
  | [] => none
  | (c, d) :: m => if c = a then some d else Mem.read m a

/-- Write consecutive bytes. -/
def Mem.write : Mem → Nat → Bytes → Mem
  | m, _, [] => m
  | m, a, b :: bs => Mem.write (m.putByte a b) (a + 1) bs

/-- Every address of the list is above `a`, and they rise strictly. -/
def Mem.above : Mem → Nat → Bool
  | [], _ => true
  | (c, _) :: m, a => a < c && Mem.above m c

/-- The canonical form of a memory: addresses strictly rising. -/
def Mem.wf : Mem → Bool
  | [] => true
  | (c, _) :: m => Mem.above m c

/-! ## Lists and words -/

/-- The first element that holds and the list without it. -/
def takeFirst {α : Type} (p : α → Bool) : List α → Option (α × List α)
  | [] => none
  | x :: xs =>
    if p x then some (x, xs)
    else match takeFirst p xs with
      | some (y, ys) => some (y, x :: ys)
      | none => none

/-- Bits [hi:lo] of a number. -/
def bits (n hi lo : Nat) : Nat := n / 2 ^ lo % 2 ^ (hi + 1 - lo)

/-- Bits [hi:lo] of a word, as a number. -/
def fld {w : Nat} (x : BitVec w) (hi lo : Nat) : Nat := bits x.toNat hi lo

/-- Bit b of a word. -/
def bit {w : Nat} (x : BitVec w) (b : Nat) : Bool := x.getLsbD b

/-- A Bool as a number. -/
def b2n (b : Bool) : Nat := if b then 1 else 0

/-- A word made of fields: (low bit, value). -/
def mkWord (fs : List (Nat × Nat)) : Word :=
  BitVec.ofNat 32 (fs.foldl (fun acc e => acc + e.2 * 2 ^ e.1) 0)

/-- Little-endian bytes of a number. -/
def toBytesLE (n : Nat) : Nat → Bytes
  | 0 => []
  | k + 1 => BitVec.ofNat 8 n :: toBytesLE (n / 256) k

/-- The number of little-endian bytes. -/
def ofBytesLE : Bytes → Nat
  | [] => 0
  | b :: bs => b.toNat + 256 * ofBytesLE bs

/-- Big-endian bytes of a number. -/
def toBytesBE (n k : Nat) : Bytes := (toBytesLE n k).reverse

/-- Bytes `a` up to `a + n`, missing ones read 0. -/
def sliceBytes (bs : Bytes) (a n : Nat) : Bytes :=
  (bs.drop a).take n ++ List.replicate (n - ((bs.drop a).take n).length) 0

/-- How many of the low `n` bits of a number are set. -/
def popcountN : Nat → Nat → Nat
  | 0, _ => 0
  | n + 1, x => x % 2 + popcountN n (x / 2)

/-- The set bit numbers below `n`, rising. -/
def bitsSet (n x : Nat) : List Nat := (List.range n).filter fun i => Nat.testBit x i

/-- Division rounded up. -/
def ceilDiv (a b : Nat) : Nat := (a + b - 1) / b

/-- Successor of a 16-bit sequence number that skips 0 (13 R306). -/
def nextGseq (n : Nat) : Nat := if n ≥ 65535 then 1 else n + 1

/-! ## Units -/

def Fabric.ni (f : Fabric) (p : Nat) : Ni := f.nis.get p {}
def Fabric.stopU (f : Fabric) (s : Nat) : Stop := f.stops.get s {}
def Fabric.die (f : Fabric) (d : Nat) : DieSlice := f.dies.get d {}

def Fabric.setNi (f : Fabric) (p : Nat) (n : Ni) : Fabric := { f with nis := f.nis.put p n }
def Fabric.setStop (f : Fabric) (s : Nat) (x : Stop) : Fabric := { f with stops := f.stops.put s x }
def Fabric.setDie (f : Fabric) (d : Nat) (x : DieSlice) : Fabric := { f with dies := f.dies.put d x }

def Fabric.updNi (f : Fabric) (p : Nat) (g : Ni → Ni) : Fabric := f.setNi p (g (f.ni p))
def Fabric.updStop (f : Fabric) (s : Nat) (g : Stop → Stop) : Fabric := f.setStop s (g (f.stopU s))
def Fabric.updDie (f : Fabric) (d : Nat) (g : DieSlice → DieSlice) : Fabric := f.setDie d (g (f.die d))
def Fabric.updFmu (f : Fabric) (g : Fmu → Fmu) : Fabric := { f with fmu := g f.fmu }
def Fabric.updTime (f : Fabric) (g : Time → Time) : Fabric := { f with time := g f.time }
def Fabric.updAux (f : Fabric) (g : TimeAux → TimeAux) : Fabric := { f with taux := g f.taux }
def Fabric.updBoot (f : Fabric) (g : Boot → Boot) : Fabric := { f with boot := g f.boot }
def Fabric.updTurn (f : Fabric) (g : Turn → Turn) : Fabric :=
  f.updFmu fun m => { m with turn := g m.turn }
def Fabric.updRes (f : Fabric) (g : Results → Results) : Fabric :=
  f.updFmu fun m => { m with res := g m.res }

/-- Do `g` for every element of a list, in order. -/
def Fabric.forEach {α : Type} (f : Fabric) (l : List α) (g : Fabric → α → Fabric) : Fabric :=
  l.foldl g f

/-- The numbers of the variant's stops, ports and dies. -/
def Fabric.stopIds (f : Fabric) : List Nat := List.range (nStops f.variant)
def Fabric.portIds (f : Fabric) : List Nat := List.range (nPorts f.variant)
def Fabric.dieIds (f : Fabric) : List Nat := List.range (nDies f.variant)

/-! ## Effects -/

/-- A command's effect on the fabric, the queue of commands untouched. -/
def State.run (s : State) (g : Fabric → Fabric) : Host.Outcome State Fault Refusal :=
  .next { s with fab := g s.fab }

/-- An effect that comes about only under a condition (log entry 4). -/
def Fabric.when (f : Fabric) (c : Bool) (g : Fabric → Fabric) : Fabric :=
  if c then g f else f

/-- The block can act: out of reset (18 R389). -/
def Fabric.live (f : Fabric) : Bool := !f.boot.inReset

/-- An access on the management bus completes (20 R426). -/
def Fabric.busReply (f : Fabric) (rdata : Word) (err : Bool) : Fabric :=
  { f with bus := { f.bus with rdata := rdata, err := err } }

/-- An access that a command names: refused and not recorded in reset (20 R427), else performed; one
to a register that is not there is ignored. -/
def Fabric.onBus (f : Fabric) (ok : Bool) (g : Fabric → Fabric) : Fabric :=
  if !f.live then f.busReply 0 true
  else (if ok then g f else f).busReply 0 false

/-- The data plane can act: out of reset and not stopped (16 R368). -/
def Fabric.moving (f : Fabric) : Bool := f.live && !f.fmu.stop.stopped

/-- A free value is drawn. DESIGN CHOICE (log entry 6). -/
def Fabric.draw (f : Fabric) : Fabric := { f with freeCtr := f.freeCtr + 1 }

/-! ## Time (02 R38, R39) -/

/-- FCC units in a milestone. -/
def msLen : Nat := 2 ^ 20

def Fabric.msc (f : Fabric) : Nat := f.time.fcc / msLen
def Fabric.kOf (f : Fabric) : Nat := f.time.fcc % msLen

/-- The counter of a die: D0's count and the die's skew (02 R41, R43, R44). -/
def Fabric.dieFcc (f : Fabric) (d : Nat) : Nat := (f.time.fcc + f.time.skew.get d 0).toNat
/-- The tree a slice uses: tree B is forced, or chosen by its markers (02 R49). -/
def Fabric.treeOf (f : Fabric) (d : Nat) : Bool := f.time.treeForceB || (f.die d).treeB

/-- FCC as registers hold it: bits [63:60] read 0 (02 R38). -/
def fccWord (n : Nat) : BitVec 64 := BitVec.ofNat 64 (n % 2 ^ 60)

/-- One fabric cycle in FCC units: 2 in crawl service (02 R39). -/
def Fabric.unit (f : Fabric) : Nat := if bit (f.fmu.cfg.regs.get 0x80C 0) 31 then 1 else 2

/-- The count that the data-plane units of a die see: its counter, in crawl service at an even value
(02 R39, R43). DEDUCED (log entry 155). -/
def Fabric.fccOf (f : Fabric) (d : Nat) : Nat := f.dieFcc d / f.unit * f.unit

/-- An instant is due when it lies within the milestone whose bookkeeping has run.
DESIGN CHOICE (log entry 9). -/
def Fabric.due (f : Fabric) (t : Nat) : Bool := t < (f.time.booked + 1) * msLen

/-- The instant at which a scheduled one takes effect: in crawl service the next even count (R39).
DEDUCED (log entry 133). -/
def Fabric.slotOf (f : Fabric) (t : Nat) : Nat := if f.unit = 2 then t + t % 2 else t

/-! ## Results (00 R14; 15 R349) -/

/-- A new result: valid, with an incremented sequence number. -/
def Result.publish (r : Result) (ws : List Word) : Result :=
  { r with valid := true, seq := r.seq + 1, words := ws }

/-- An acknowledge consumes the result. -/
def Result.ack (r : Result) : Result := { r with valid := false }

/-- A result is awaited: it reads not valid until published. -/
def Result.start (r : Result) : Result := { r with valid := false }

/-- The head word of a result: VALID, SEQ and the low 24 bits of its first word. -/
def Result.head (r : Result) : Word :=
  mkWord [(31, b2n r.valid), (24, r.seq.toNat), (0, fld (r.words.headD 0) 23 0)]

/-- Companion word i of a result. -/
def Result.word (r : Result) (i : Nat) : Word := r.words.getD i 0

end Sys2Proof.Machine
end

