-- ==== Sys2Proof/Machine/Cfg.lean ====
section
/-! DEFINITION. Staged registers and tables: which words are staged state, their reset values, and
the values in force (15 R331; 20 R438, R443). -/

namespace Sys2Proof.Machine

/-! ## Kinds of unit: 1-8 as `NI_ID.KIND`, 9 stop, 10 FMU (07 R157) -/

/-- A spare attachment that stands in for a gateway: its index (17 R378). -/
def Fabric.gwSub (f : Fabric) (p : Nat) : Option Nat :=
  match f.fmu.spares.find? (fun r => r.1 == 5 && r.2.1 == p) with
  | some r => some (fld r.2.2.2 3 0)
  | none => none

/-- A gateway whose place a spare attachment has taken (17 R378). -/
def Fabric.gwReplaced (f : Fabric) (p : Nat) : Bool :=
  f.fmu.spares.any fun r =>
    r.1 == 5 && dieOfPort r.2.1 == dieOfPort p && fld r.2.2.2 3 0 == gwIndex (stopOfPort p)

/-- `NI_ID.KIND` of a port (01 R23). -/
def Fabric.kind (f : Fabric) (p : Nat) : Nat :=
  match baseKind f.variant p with
  | 8 => if (f.gwSub p).isSome then 3 else 8
  | 3 => if f.gwReplaced p then 8 else 3
  | k => k

/-- `NI_ID.UNIT` of a port (01 R23). -/
def Fabric.unitNo (f : Fabric) (p : Nat) : Nat :=
  match f.gwSub p with
  | some i => i
  | none => if f.kind p == 8 then 0 else baseUnit f.variant p

/-- The NI_ID word (01 R23). -/
def Fabric.niId (f : Fabric) (p : Nat) : Word :=
  if f.kind p == 0 then 0 else mkWord [(28, f.kind p), (16, f.unitNo p), (0, p)]

/-! ## Staged registers -/

/-- `DLINE` at reset: the wrap outputs of the stop (05 R127). -/
def dlineReset (v : Variant) (s : Nat) : Nat :=
  b2n (isWrap v s 0) + 2 * b2n (isWrap v s 1) + 4 * b2n (isWrap v s 2) + 8 * b2n (isWrap v s 3)

/-- The bits of an NI register that are staged state; `none` where the offset holds none. -/
def niMask (v : Variant) (kind off : Nat) : Option Nat :=
  let gw := kind == 3 || kind == 8
  if off == 0x100 then if kind == 1 then some 0x3F else none
  else if off == 0x200 then some 0xFFFF0002
  else if off == 0x204 then some 0xFFFF
  else if off == 0x300 then some 0xFFFFFFFF
  else if off == 0x320 then if kind == 1 || gw then some 0xFF else none
  else if off == 0x330 || off == 0x334 then some 0xFF00FFFF
  else if 0x340 ≤ off && off ≤ 0x34C && off % 4 == 0 then
    if kind == 1 && hasRdu v then some 0x800F003F else none
  else if 0x400 ≤ off && off ≤ 0x4F0 && off % 16 == 0 then if kind == 1 then some 0x3F else none
  else if off == 0x500 then some 0xFFFFFFFF
  else if off == 0x50C then if kind == 1 then some 0xC00FFFFF else none
  else if off == 0x900 then if kind == 1 then some 0xFFFF else none
  else if off == 0xA00 then if gw then some 0xFF00FFFF else none
  else if off == 0x1300 then if kind == 1 && hasTrace v then some 0xFFFF800F else none
  else if off == 0x1310 then if kind == 5 && hasTrace v then some 0xFF000000 else none
  else none

/-- Reset values of the staged registers of an NI. -/
def niReset (kind off : Nat) : Nat :=
  if off == 0x204 then 1
  else if off == 0x300 then 0x40002110
  else if off == 0x320 then if kind == 1 then 0x20 else if kind == 3 || kind == 8 then 0x72 else 0
  else if off == 0x330 then if kind == 5 then 0x20008000 else 0x04000800
  else if off == 0x334 then 0x08000400
  else if off == 0x500 then 0x10000040
  else if off == 0x900 then if kind == 1 then 0x21 else 0
  else if off == 0xA00 then if kind == 3 || kind == 8 then 0x08001000 else 0
  else if off == 0x1310 then if kind == 5 then 0x04000000 else 0
  else 0

/-- The bits of a stop register that are staged state. -/
def stopMask (off : Nat) : Option Nat :=
  if off == 0x200 then some 0xFFFF01FF
  else if off == 0x204 then some 0xFFFF
  else if off == 0x208 then some 0xF
  else if off == 0x220 then some 0xFFFFFFFF
  else if 0x300 ≤ off && off ≤ 0x31C && off % 4 == 0 then some 0xFFFFFFFF
  else if off == 0x340 then some 0xFFFF
  else if off == 0x400 then some 0xFFFFFFFF
  else none

/-- Reset values of the staged registers of a stop. -/
def stopReset (v : Variant) (s off : Nat) : Nat :=
  if off == 0x200 then 0x60400164
  else if off == 0x204 then 1
  else if off == 0x208 then dlineReset v s
  else if off == 0x220 then 0x21212110
  else if 0x300 ≤ off && off ≤ 0x31C && off % 4 == 0 then 0xFFFFFFFF
  else if off == 0x340 then 0x400
  else if off == 0x400 then 0x08102040
  else 0

/-- The bits of an FMU register that are staged state. -/
def fmuMask (off : Nat) : Option Nat :=
  if off == 0x440 then some 1 else if off == 0x80C then some 0x80000000 else none

/-- Value in force of a staged register of an NI, a stop and the FMU. -/
def Fabric.niReg (f : Fabric) (p off : Nat) : Word :=
  (f.ni p).cfg.regs.get off (BitVec.ofNat 32 (niReset (baseKind f.variant p) off))
def Fabric.stopReg (f : Fabric) (s off : Nat) : Word :=
  (f.stopU s).cfg.regs.get off (BitVec.ofNat 32 (stopReset f.variant s off))
def Fabric.fmuReg (f : Fabric) (off : Nat) : Word := f.fmu.cfg.regs.get off 0

/-! ## Tables (20 R438) -/

/-- The key of a table word. -/
def tkey (table idx : Nat) : Nat := table * 2 ^ 24 + idx

/-- Reset value of a table word: `QUANT` of a meter entry is 0x21 (06 R143). -/
def tabReset (ni : Bool) (key : Nat) : Word :=
  if ni && key / 2 ^ 24 == 2 && key % 4 == 0 then 0x00210000 else 0

/-- A staged-table word in force, of an NI, a stop, the FMU. -/
def Fabric.niTab (f : Fabric) (p table idx : Nat) : Word :=
  (f.ni p).cfg.tabs.get (tkey table idx) (tabReset true (tkey table idx))
def Fabric.stopTab (f : Fabric) (s table idx : Nat) : Word :=
  (f.stopU s).cfg.tabs.get (tkey table idx) 0
def Fabric.fmuTab (f : Fabric) (table idx : Nat) : Word := f.fmu.cfg.tabs.get (tkey table idx) 0

/-- An epoch table of a store. -/
def CfgStore.ep (c : CfgStore) (e : BitVec 1) : WMap := if e = 0 then c.ep0 else c.ep1

/-- A word of an epoch table. -/
def Fabric.niEp (f : Fabric) (p : Nat) (e : BitVec 1) (table idx : Nat) : Word :=
  ((f.ni p).cfg.ep e).get (tkey table idx) 0
def Fabric.stopEp (f : Fabric) (s : Nat) (e : BitVec 1) (table idx : Nat) : Word :=
  ((f.stopU s).cfg.ep e).get (tkey table idx) 0

/-- The epoch in force. -/
def Fabric.epoch (f : Fabric) : BitVec 1 := f.fmu.turn.epoch

/-- Whether packets of an epoch route by default hop logic (04 R101). -/
def Fabric.defaultHop (f : Fabric) (e : BitVec 1) : Bool := f.fmu.turn.def0 && e == 0

/-- Whether an NI injects by default hop logic: no turn has swapped (04 R101). -/
def Fabric.beforeTurn1 (f : Fabric) : Bool := f.fmu.turn.first

/-- `NODE` in force at an NI (04 R99). -/
def Fabric.node (f : Fabric) (p : Nat) : Nat := fld (f.niReg p 0x200) 31 16

/-- Crawl restrictions apply (18 R397, R404). -/
def Fabric.crawl (f : Fabric) : Bool := f.boot.crawl

/-- The local and remote limits of an NI's timers, in fc (08 R208). -/
def Fabric.localTmo (f : Fabric) (p : Nat) : Nat := 1024 * max 1 (fld (f.niReg p 0x500) 15 0)
def Fabric.remoteTmo (f : Fabric) (p : Nat) : Nat := 1024 * max 1 (fld (f.niReg p 0x500) 31 16)

/-- What a stop holds for a local port. -/
def Fabric.sport (f : Fabric) (p : Nat) : StopPort :=
  (f.stopU (stopOfPort p)).ports.get (localOfPort p) {}
def Fabric.updSport (f : Fabric) (p : Nat) (g : StopPort → StopPort) : Fabric :=
  f.updStop (stopOfPort p) fun s => { s with ports := s.ports.upd (localOfPort p) {} g }

/-- The Accept Map bit of a port for a domain (12 R277). -/
def Fabric.accepts (f : Fabric) (p dom : Nat) : Bool :=
  bit (f.stopReg (stopOfPort p) (0x300 + 8 * localOfPort p + 4 * (dom / 32))) (dom % 32)

/-- An NI whose registers and queues are powered (12 R285). -/
def Fabric.powered (f : Fabric) (p : Nat) : Bool :=
  match (f.sport p).pwr with
  | .on => true
  | .isolating => true
  | .off => false
  | .waking => false

/-- An attached NI in use, other than a spare attachment (04 R88). -/
def Fabric.attached (f : Fabric) (p : Nat) : Bool := f.kind p != 0 && f.kind p != 8

/-! ## Cycles pass (06 R134; 07 R180; 19 R408) -/

/-- `STATE` of a channel (R180). -/
def Chan.stateCode (c : Chan) : Nat :=
  if !c.aborts.isEmpty then 4 else if c.halted then 3
  else if c.reason != 0 then 2 else if c.queue.isEmpty then 0 else 1

/-- What n cycles add to the account of a channel: key, and count. -/
def Chan.accAdd (c : Chan) : List Nat :=
  match c.stateCode with
  | 0 => []
  | 1 => [0]
  | 4 => [0]
  | _ => [1, 2 + if c.halted then 8 else c.reason.toNat]

/-- A Core NI's channels account for n cycles. -/
def Tsq.account (q : Tsq) (n : Nat) : Tsq :=
  { q with acc := q.chans.foldl (init := q.acc) fun m c =>
      c.2.accAdd.foldl (init := m) fun m i => NMap.upd m (16 * c.1 + i) 0 fun x => (x + n) % 2 ^ 48 }

/-- The outputs of the Fabric Issue Port after n cycles (07 R151). -/
def FipRsp.passed (r : FipRsp) (n : Nat) : FipRsp :=
  if n = 1 && r.accept then { valid := true, status := r.next } else {}

/-- A control credit rises for n cycles in which its queue waits. -/
def riseTo (cmax rise credit n : Nat) : Nat := min (65536 * max 1 cmax) (credit + n * max 1 rise)

/-- A word of the control-credit registers as the credit uses it. -/
def Fabric.ccWord (f : Fabric) (p off : Nat) : Word :=
  NMap.get (f.ni p).inj.ccOld off (f.niReg p off)

/-- An NI whose `MGT` packets wait: its own faults, and at a slice's port the slice's (16 R353). -/
def Fabric.mgtWaits (f : Fabric) (p : Nat) : Bool :=
  !(f.ni p).flt.waiting.isEmpty || (p == slicePort (dieOfPort p) && !(f.die (dieOfPort p)).flt.waiting.isEmpty)

/-- n cycles pass at an NI and at a stop. -/
def Fabric.niPass (f : Fabric) (n p : Nat) : Fabric :=
  let wm := f.ccWord p 0x330
  let ws := f.ccWord p 0x334
  let mgt := f.mgtWaits p
  f.updNi p fun x => { x with
    tsq := { x.tsq.account n with fip := x.tsq.fip.passed n }
    inj := { x.inj with
      ccMgt := if mgt then riseTo (fld wm 31 24) (fld wm 15 0) x.inj.ccMgt n else x.inj.ccMgt
      ccSig := if (x.inj.queues.get 102 []).isEmpty then x.inj.ccSig
        else riseTo (fld ws 31 24) (fld ws 15 0) x.inj.ccSig n } }
def Fabric.stopPass (f : Fabric) (n s : Nat) : Fabric :=
  f.updStop s fun x => if x.flt.waiting.isEmpty then x
    else { x with flt := { x.flt with credit := riseTo 4 0x800 x.flt.credit n } }

/-- n cycles pass in the data plane. DESIGN CHOICE (log entry 126). -/
def Fabric.pass (f : Fabric) (n : Nat) : Fabric :=
  if n = 0 || !f.moving then f
  else
    let ports := f.nis.map (·.1) ++ (f.dies.map fun d => slicePort d.1).filter fun p => (f.nis.find? p).isNone
    let f1 := ports.foldl (fun g p => g.niPass n p) (f.updTime fun t => { t with cycles := t.cycles + n })
    (f.stops.map (·.1)).foldl (fun g s => g.stopPass n s) f1

/-- Time reaches an instant. DESIGN CHOICE (log entry 9). -/
def Fabric.reach (f : Fabric) (t : Nat) : Fabric :=
  let u := f.slotOf t
  if u ≤ f.time.fcc then f
  else (f.pass ((u - f.time.fcc) / f.unit)).updTime fun x => { x with fcc := u }

end Sys2Proof.Machine
end

