-- ==== Sys2Proof/Machine/Flags.lean ====
section
/-! DEFINITION. Status codes and their precedence, completion counter records, and the raising of
faults (03 R79; 09 R222; 07 R170-R172; 16 R352-R354). -/

namespace Sys2Proof.Machine

/-! ## Status (03 R79) -/

/-- The 4-bit code of a status. -/
def statusCode : Status → Nat
  | .ok => 0 | .poison => 1 | .partPoison => 2 | .timeout => 3 | .fenced => 4 | .targetOff => 5
  | .domainDeny => 6 | .xlateFault => 7 | .absentUnit => 8 | .aborted => 9 | .abortLate => 10
  | .saturated => 11 | .malformed => 12 | .unreachable => 13 | .linkFail => 14

/-- The status of a 4-bit code; 0xF is reserved. -/
def statusOf (n : Nat) : Option Status :=
  match n with
  | 0 => some .ok | 1 => some .poison | 2 => some .partPoison | 3 => some .timeout
  | 4 => some .fenced | 5 => some .targetOff | 6 => some .domainDeny | 7 => some .xlateFault
  | 8 => some .absentUnit | 9 => some .aborted | 10 => some .abortLate | 11 => some .saturated
  | 12 => some .malformed | 13 => some .unreachable | 14 => some .linkFail
  | _ => none

/-- A received status; a reserved code counts as malformed (03 R79, R81). -/
def statusOfHdr (h : Header) : Status :=
  match statusOf h.status.toNat with
  | some s => s
  | none => .malformed

/-- Precedence of combined statuses, 1 highest (09 R222). -/
def statusRank : Status → Nat
  | .malformed => 1 | .xlateFault => 2 | .linkFail => 3 | .timeout => 4 | .unreachable => 5
  | .targetOff => 6 | .fenced => 7 | .domainDeny => 8 | .poison => 9 | .partPoison => 10
  | .saturated => 11 | .ok => 12 | .absentUnit => 13 | .aborted => 14 | .abortLate => 15

/-- The status of higher precedence (09 R222). -/
def Status.join (a b : Status) : Status := if statusRank b < statusRank a then b else a

/-! ## Completion counters (07 R170, R172) -/

/-- An addition of a channel with a status: it is added whatever the status. The first status other than
`OK` stays; of the completions of one fc the lowest channel's is the first. -/
def Counter.added (c : Counter) (ch : Nat) (a : BitVec 48) (st : Status) (info : BitVec 48) : Counter :=
  let c1 := { c with value := c.value + a }
  if st = .ok then c1
  else
    let c2 := { c1 with nbad := if c.nbad = 4095 then 4095 else c.nbad + 1 }
    let first := c.status = .ok || (match c.giver with | some k => ch < k | none => false)
    if first then { c2 with status := st, info := info, giver := some ch } else c2

/-- An addition that lands in the present fc. -/
def Counter.land (c : Counter) (ch : Nat) (a : BitVec 48) (st : Status) (info : BitVec 48) : Counter :=
  { c.added ch a st info with late := c.late ++ [(ch, a, st, info)] }

/-- A completion of a channel's op adds `CINC`. -/
def Counter.complete (c : Counter) (ch cinc : Nat) (st : Status) (info : BitVec 48) : Counter :=
  c.land ch (BitVec.ofNat 48 cinc) st info

/-- An addend is added modulo 2^48 (07 R173). -/
def Counter.addTo (c : Counter) (a : BitVec 48) : Counter := c.land 0 a .ok 0

/-- A counter that changes in fc t: what landed in an earlier fc is forgotten. -/
def Counter.now (c : Counter) (t : Nat) : Counter :=
  if c.at_ = t then c else { c with at_ := t, late := [], giver := none, was := none }

/-- `VALUE` without the additions of the fc of the last change. -/
def Counter.base (c : Counter) : BitVec 48 := c.value - c.late.foldl (fun a x => a + x.2.1) 0

/-- The reset of a counter by `CRST` (07 R172): what landed in the same fc applies after it.
DEDUCED (log entry 153). -/
def Counter.crst (c : Counter) : Counter :=
  let z : Counter :=
    { value := 0, nbad := 0, status := .ok, info := 0, last := c.base, lseq := c.lseq + 1
      at_ := c.at_, late := c.late, was := some (c.was.getD { c.toCtrRec with value := c.base }) }
  c.late.foldl (fun k x => k.added x.1 x.2.1 x.2.2.1 x.2.2.2) z

/-- What a sample in fc t returns: a reset of that fc is not seen (R172). -/
def Counter.seen (c : Counter) (t : Nat) : CtrRec :=
  if c.at_ = t then c.was.getD c.toCtrRec else c.toCtrRec

/-- What a `WAIT` compares in fc t: additions of that fc are not seen either (R172, R174). -/
def Counter.compared (c : Counter) (t : Nat) : BitVec 48 :=
  if c.at_ = t then (match c.was with | some r => r.value | none => c.base) else c.value

/-- The eight words of a counter record (07 R170, R181). -/
def CtrRec.words (c : CtrRec) : List Word :=
  let lo : Nat := c.value.toNat + c.nbad.toNat * 2 ^ 48 + statusCode c.status * 2 ^ 60
  let n : Nat := lo + c.info.toNat * 2 ^ 64 + c.last.toNat * 2 ^ 128 + c.lseq.toNat * 2 ^ 176
  (List.range 8).map fun i => BitVec.ofNat 32 (n / 2 ^ (32 * i))

/-! ## Faults (16 R352-R354) -/

/-- The code of a kind (16 R354). -/
def FaultKind.code : FaultKind → Nat
  | .tickMiss => 0x01 | .tickPhase => 0x02 | .mscMismatch => 0x03 | .mscFrame => 0x04
  | .treeFail => 0x05 | .alignFail => 0x06 | .timeRefused => 0x07
  | .frameErr => 0x10 | .hdrCheck => 0x11 | .hopLimit => 0x12 | .truncated => 0x13
  | .creditOverrun => 0x14 | .linkRetry => 0x18 | .linkWithdrawn => 0x19 | .bufParity => 0x1C
  | .rspDrop => 0x20 | .sigDrop => 0x21 | .rspUnmatched => 0x22 | .rspDomain => 0x23
  | .rspTimeout => 0x24 | .scrubPoison => 0x28 | .readPoison => 0x29 | .mcProtocol => 0x2A
  | .xlateProtocol => 0x2B | .opPriv => 0x30 | .fenceInj => 0x31 | .regionDeny => 0x32
  | .mcLeafDrop => 0x38 | .mcRelayFail => 0x39 | .rduTimeout => 0x3A | .rduAnchor => 0x3B
  | .rduDomain => 0x3C | .treeBroken => 0x3D | .rdRelayFail => 0x3E | .sinkStall => 0x40
  | .tgtStall => 0x41 | .gwStall => 0x42 | .xcreditOverrun => 0x43 | .xcreditSeq => 0x44
  | .pwrHold => 0x48 | .pwrWakeFail => 0x49 | .turnFail => 0x50 | .turnDisarmLost => 0x51
  | .drainStuck => 0x52 | .guaranteeShed => 0x53

/-- Every kind. -/
def FaultKind.all : List FaultKind :=
  [.tickMiss, .tickPhase, .mscMismatch, .mscFrame, .treeFail, .alignFail, .timeRefused,
   .frameErr, .hdrCheck, .hopLimit, .truncated, .creditOverrun, .linkRetry, .linkWithdrawn,
   .bufParity, .rspDrop, .sigDrop, .rspUnmatched, .rspDomain, .rspTimeout, .scrubPoison,
   .readPoison, .mcProtocol, .xlateProtocol, .opPriv, .fenceInj, .regionDeny, .mcLeafDrop,
   .mcRelayFail, .rduTimeout, .rduAnchor, .rduDomain, .treeBroken, .rdRelayFail, .sinkStall,
   .tgtStall, .gwStall, .xcreditOverrun, .xcreditSeq, .pwrHold, .pwrWakeFail, .turnFail,
   .turnDisarmLost, .drainStuck, .guaranteeShed]

/-- The kind of a code, none for a reserved code. DESIGN CHOICE (log entry 69). -/
def kindOfCode (n : Nat) : Option FaultKind := FaultKind.all.find? fun k => k.code == n

/-- The class of a kind (16 R354). -/
def FaultKind.cls (k : FaultKind) : Nat :=
  let c := k.code
  if c ≤ 0x07 then 1
  else if c ≤ 0x14 then 2
  else if c ≤ 0x19 then 3
  else if c == 0x1C then 4
  else if c ≤ 0x24 then 5
  else if c ≤ 0x2B then 6
  else if c ≤ 0x32 then 7
  else if c ≤ 0x3E then 8
  else if c ≤ 0x44 then 9
  else if c ≤ 0x49 then 0xA
  else 0xB

/-- The default severity of a kind, 0 RECORD to 4 HALT (16 R354 and the rules it names). -/
def FaultKind.sev : FaultKind → Nat
  | .mscFrame => 0 | .timeRefused => 0 | .linkRetry => 0 | .rspDrop => 0 | .rspUnmatched => 0
  | .rspTimeout => 0 | .readPoison => 0 | .mcLeafDrop => 0
  | .treeFail => 2 | .linkWithdrawn => 2 | .pwrWakeFail => 2
  | .sinkStall => 3 | .tgtStall => 3 | .gwStall => 3
  | .alignFail => 4 | .turnDisarmLost => 4
  | _ => 1

/-- A fault record as its unit writes it (16 R352, R353). -/
def mkFault (srcType unit : Nat) (code cls : Nat) (forced : Bool) (info stamp : Nat) : FaultRec :=
  { srcid := BitVec.ofNat 16 (srcType * 2 ^ 12 + unit), fkind := BitVec.ofNat 8 code
    fclass := BitVec.ofNat 8 (cls + (if forced then 128 else 0)), sev := 0
    info := BitVec.ofNat 48 info, stamp := fccWord stamp }

/-- A unit queues a fault for sending; before crawl service opens it holds four (18 R393). -/
def FaultQ.push (q : FaultQ) (opened : Bool) (r : FaultRec) : FaultQ :=
  if opened || q.waiting.length < 4 then { q with waiting := q.waiting ++ [r] } else q

/-- An NI raises a fault (16 R353). -/
def Fabric.raiseNi (f : Fabric) (p : Nat) (k : FaultKind) (info : Nat) : Fabric :=
  f.updNi p fun n => { n with
    flt := n.flt.push f.fmu.prog.open_ (mkFault 3 p k.code k.cls false info (f.fccOf (dieOfPort p))) }

/-- A stop raises a fault of its own, its links or its RDU. -/
def Fabric.raiseStop (f : Fabric) (s : Nat) (k : FaultKind) (info : Nat) : Fabric :=
  f.updStop s fun x => { x with
    flt := x.flt.push f.fmu.prog.open_ (mkFault 2 s k.code k.cls false info (f.fccOf (dieOfStop s))) }

/-- A die slice raises a fault. -/
def Fabric.raiseDie (f : Fabric) (d : Nat) (k : FaultKind) (info : Nat) : Fabric :=
  f.updDie d fun x => { x with
    flt := x.flt.push f.fmu.prog.open_ (mkFault 1 d k.code k.cls false info (f.dieFcc d)) }

/-- The FMU raises a fault of its own, internally: it is at the FMU at once. -/
def Fabric.raiseFmu (f : Fabric) (k : FaultKind) (info : Nat) : Fabric :=
  f.updFmu fun m => { m with fault := { m.fault with
    arrived := m.fault.arrived ++ [mkFault 0 0 k.code k.cls false info f.time.fcc] } }

/-- The information word "input, class, VC" (16 R354). -/
def infoIcv (input cls vc : Nat) : Nat := input + cls * 16 + vc * 128

/-- The information of a dropped answer or SIG (16 R354). -/
def infoDrop (h : Header) (st : Status) : Nat :=
  h.domain.toNat * 2 ^ 42 + statusCode st * 2 ^ 32 + h.tag.toNat * 2 ^ 20 + h.rport.toNat

end Sys2Proof.Machine
end

