-- ==== Sys2Proof/Machine/Packets.lean ====
section
/-! DEFINITION. Header bits, the header check, packets as flits and back, and the control field of
a flit (03). -/

namespace Sys2Proof.Machine

/-! ## The header as 256 bits (03 R64) -/

/-- The 256 bits of a header. -/
def Header.toBits (h : Header) : BitVec 256 :=
  h.cls ++ h.vc ++ h.epoch ++ h.dmode ++ h.trace ++ h.domain ++ h.op ++ h.len ++ h.hops ++
  h.status ++ h.kind ++ h.fmt ++ h.mark ++ h.echo ++ h.colour ++ h.rsv.extractLsb' 17 2 ++ h.tag ++
  h.rsv.extractLsb' 13 4 ++ h.dest ++ h.rsv.extractLsb' 9 4 ++ h.src ++ h.seq ++ h.group ++ h.rport ++ h.bcnt ++
  h.rsv.extractLsb' 0 9 ++ h.pmask ++ h.addr ++ h.hchk

/-- The fields of 256 header bits. -/
def Header.ofBits (b : BitVec 256) : Header :=
  { cls := b.extractLsb' 253 3, vc := b.extractLsb' 252 1, epoch := b.extractLsb' 251 1
    dmode := b.extractLsb' 249 2, trace := b.extractLsb' 248 1, domain := b.extractLsb' 242 6
    op := b.extractLsb' 236 6, len := b.extractLsb' 230 6, hops := b.extractLsb' 224 6
    status := b.extractLsb' 220 4, kind := b.extractLsb' 216 4, fmt := b.extractLsb' 212 4
    mark := b.extractLsb' 210 2, echo := b.extractLsb' 208 2, colour := b.extractLsb' 206 2
    tag := b.extractLsb' 192 12, dest := b.extractLsb' 160 28, src := b.extractLsb' 128 28
    seq := b.extractLsb' 112 16, group := b.extractLsb' 100 12, rport := b.extractLsb' 90 10
    bcnt := b.extractLsb' 77 13, pmask := b.extractLsb' 64 4, addr := b.extractLsb' 16 48
    rsv := b.extractLsb' 204 2 ++ b.extractLsb' 188 4 ++ b.extractLsb' 156 4 ++ b.extractLsb' 68 9
    hchk := b.extractLsb' 0 16 }

/-- Word i of the header as the check reads it: VC, HOPS and MARK as zero (03 R66). -/
def hchkWord (b : BitVec 256) (i : Nat) : BitVec 16 :=
  let w := b.extractLsb' (16 * i) 16
  if i = 15 then w &&& 0xEFFF else if i = 14 then w &&& 0xFFC0
  else if i = 13 then w &&& 0xFFF3 else w

/-- The header check over bits [255:16] (03 R66). -/
def hchkOf (b : BitVec 256) : BitVec 16 :=
  (List.range 15).foldl (fun a i => a ^^^ hchkWord b (i + 1)) 0

/-- Write the header check (03 R66). -/
def Header.seal (h : Header) : Header := { h with hchk := hchkOf (Header.toBits h) }

/-- The check holds. -/
def Header.checks (h : Header) : Bool := h.hchk == hchkOf (Header.toBits h)

/-! ## Kinds (03 R69) -/

def kRdReq : Nat := 0
def kWrReq : Nat := 1
def kRdRsp : Nat := 2
def kWrAck : Nat := 3
def kSig : Nat := 4
def kMcData : Nat := 5
def kMcAck : Nat := 6
def kContrib : Nat := 7
def kDone : Nat := 8
def kMgtOp : Nat := 9
def kMgtRsp : Nat := 10
def kFault : Nat := 11
def kGather : Nat := 12
def kCntData : Nat := 13
def kXcredit : Nat := 14

/-- Request kinds, to which fence, PSTATE and PERMIT apply (04 R83; 12 R276). -/
def isRequestKind (k : Nat) : Bool := k == 0 || k == 1 || k == 4 || k == 5 || k == 7

/-- Answer kinds (03 R69). -/
def isAnswerKind (k : Nat) : Bool := k == 2 || k == 3 || k == 6 || k == 8 || k == 10 || k == 13

/-- Answered kinds and the kind of their answer (03 R69). -/
def answerKind (k : Nat) : Option Nat :=
  match k with
  | 0 => some 2 | 1 => some 3 | 5 => some 6 | 7 => some 8 | 9 => some 10 | 12 => some 13
  | _ => none

/-- Whether class and DMODE are listed for the kind (03 R69). -/
def kindLegal (h : Header) : Bool :=
  let c := h.cls.toNat
  let coord := h.dmode == 0
  let coordFlat := h.dmode == 0 || h.dmode == 1
  match h.kind.toNat with
  | 0 => (c == 2 || c == 1 || c == 5) && coordFlat
  | 1 => (c == 2 || c == 1 || c == 5) && coordFlat
  | 2 => (c == 3 || c == 1 || c == 5) && coord
  | 3 => (c == 3 || c == 1 || c == 5) && coord
  | 4 => (c == 2 || c == 5) && coordFlat
  | 5 => (c == 4 || c == 5) && h.dmode == 2
  | 6 => (c == 3 || c == 5) && coord
  | 7 => (c == 4 || c == 5) && h.dmode == 2
  | 8 => (c == 3 || c == 5) && h.dmode == 2
  | 9 => c == 0 && coord
  | 10 => c == 0 && coord
  | 11 => c == 0 && coord
  | 12 => c == 0 && coord
  | 13 => c == 0 && coord
  | 14 => c == 5 && coord
  | _ => false

/-- `LEN` of a data-bearing packet (03 R75 rule 1). -/
def dataLen (addr bcnt : Nat) : Nat :=
  if bcnt ≤ 64 && addr / 128 == (addr + bcnt - 1) / 128 then 1
  else 1 + ceilDiv (addr % 128 + bcnt) 128

/-- `LEN` and `BCNT` agree with the rules of lengths (03 R75). -/
def lengthsLegal (h : Header) : Bool :=
  let l := h.len.toNat
  let b := h.bcnt.toNat
  let a := h.addr.toNat
  let dataOk := 1 ≤ b && b ≤ 4096 && l == dataLen a b && l ≤ 33
  match h.kind.toNat with
  | 1 => dataOk
  | 5 => dataOk
  | 13 => dataOk && a == 0
  | 2 => if h.status == 0 || h.status == 1 then dataOk else b == 0 && l == 1
  | 0 => 1 ≤ b && b ≤ 4096 && 1 + ceilDiv (a % 128 + b) 128 ≤ 33 && l == 1
  | 3 => l == 1 && (if h.status == 0 || h.status == 2 then b ≤ 4096 else b == 0)
  | 7 => l == 1 + ceilDiv b 128 && l ≤ 33
  | 8 => l == 1 + ceilDiv b 128 && l ≤ 33
  | _ => l == 1 && b == 0

/-! ## Packets as flits (03 R72) -/

/-- 64 bytes as the DATA area. -/
def areaBits (bs : Bytes) : BitVec 512 := BitVec.ofNat 512 (ofBytesLE (bs.take 64))

/-- `OP` of a packet that no op caused, other than those of the load path (03 R71). -/
def opNone : BitVec 6 := 0x3E

/-- Kinds that keep their bytes at `ADDR` offsets: WR_REQ, RD_RSP, MC_DATA, CNT_DATA. -/
def isDataKind (k : Nat) : Bool := k == 1 || k == 2 || k == 5 || k == 13

/-- The head payload of a packet. -/
def Packet.headPay (p : Packet) : BitVec 768 :=
  let area := if isDataKind p.hdr.kind.toNat && p.hdr.len == 1 then p.body else p.area
  areaBits area ++ p.aux

/-- A line of 128 bytes as the data bits of a body flit. -/
def lineBits (bs : Bytes) : BitVec 1024 := BitVec.ofNat 1024 (ofBytesLE (bs.take 128))

/-- The body flits of a packet. -/
def Packet.bodyFlits (p : Packet) : List (BitVec 1024) :=
  let off := if isDataKind p.hdr.kind.toNat then p.hdr.addr.toNat % 128 else 0
  let bs := List.replicate off 0 ++ p.body
  (List.range (p.hdr.len.toNat - 1)).map fun j => lineBits (bs.drop (128 * j))

/-- All its flits. -/
def Packet.flits (p : Packet) : List (BitVec 1024) := (Header.toBits p.hdr ++ Packet.headPay p) :: Packet.bodyFlits p

/-- A packet from its header, head payload and body flits. -/
def packetOf (h : Header) (pay : BitVec 768) (body : List (BitVec 1024)) : Packet :=
  let area := toBytesLE (pay.extractLsb' 256 512).toNat 64
  let aux := pay.extractLsb' 0 256
  let raw := (body.map fun d => toBytesLE d.toNat 128).flatten
  let n := h.bcnt.toNat
  if isDataKind h.kind.toNat then
    if h.len == 1 then { hdr := h, area := [], aux := aux, body := area.take n }
    else { hdr := h, area := [], aux := aux, body := sliceBytes raw (h.addr.toNat % 128) n }
  else { hdr := h, area := area, aux := aux, body := raw.take n }

/-! ## AUX and DATA fields (03 R72, R73) -/

/-- AUX of a SIG. -/
def sigAux (addend : BitVec 48) (ncomb : Nat) : BitVec 256 :=
  addend ++ BitVec.ofNat 12 ncomb ++ (0 : BitVec 196)
def sigAddend (a : BitVec 256) : BitVec 48 := a.extractLsb' 208 48
def sigNcomb (a : BitVec 256) : Nat := (a.extractLsb' 196 12).toNat

/-- AUX of an MC_ACK. -/
def mcAckAux (nack nfenced : Nat) (low : BitVec 26) : BitVec 256 :=
  BitVec.ofNat 16 nack ++ BitVec.ofNat 16 nfenced ++ low ++ (0 : BitVec 198)
def ackNack (a : BitVec 256) : Nat := (a.extractLsb' 240 16).toNat
def ackNfenced (a : BitVec 256) : Nat := (a.extractLsb' 224 16).toNat
def ackLow (a : BitVec 256) : BitVec 26 := a.extractLsb' 198 26

/-- AUX of RD_CONTRIB and RD_DONE (03 R73). -/
structure RedMeta where
  rop : BitVec 4 := 0
  pw : BitVec 2 := 0
  guard : BitVec 5 := 0
  ncontrib : BitVec 17 := 0
  eoff : BitVec 32 := 0
  ecnt : BitVec 12 := 0
  pcount : BitVec 16 := 0
  deriving DecidableEq, Repr

def redAux (m : RedMeta) : BitVec 256 :=
  m.rop ++ m.pw ++ m.guard ++ m.ncontrib ++ m.eoff ++ m.ecnt ++ m.pcount ++ (0 : BitVec 168)
def redOf (a : BitVec 256) : RedMeta :=
  { rop := a.extractLsb' 252 4, pw := a.extractLsb' 250 2, guard := a.extractLsb' 245 5
    ncontrib := a.extractLsb' 228 17, eoff := a.extractLsb' 196 32, ecnt := a.extractLsb' 184 12
    pcount := a.extractLsb' 168 16 }

/-- AUX of an XCREDIT. -/
def xcAux (grant gseq : Nat) : BitVec 256 :=
  BitVec.ofNat 16 grant ++ BitVec.ofNat 16 gseq ++ (0 : BitVec 224)
def xcGrant (a : BitVec 256) : Nat := (a.extractLsb' 240 16).toNat
def xcGseq (a : BitVec 256) : Nat := (a.extractLsb' 224 16).toNat

/-- The DATA area of a FAULT packet (03 R74), byte 0 first. -/
def faultArea (r : FaultRec) : Bytes :=
  toBytesLE (r.srcid ++ r.fkind ++ r.fclass ++ r.sev ++ (0 : BitVec 13) ++ r.info ++ r.stamp ++
    (0 : BitVec 352)).toNat 64

/-- The record in the DATA area of a FAULT packet (03 R74). -/
def faultOf (area : Bytes) : FaultRec :=
  let b : BitVec 512 := areaBits area
  { srcid := b.extractLsb' 496 16, fkind := b.extractLsb' 488 8, fclass := b.extractLsb' 480 8
    sev := b.extractLsb' 477 3, info := b.extractLsb' 416 48, stamp := b.extractLsb' 352 64 }

/-- A FAULT packet (03 R69, R71, R72, R75; 12 R276; 16 R353) for the FMU's port, from a port of its node.
DESIGN CHOICE (log entry 150). -/
def faultPkt (node srcPort : Nat) (r : FaultRec) : Packet :=
  { hdr := { cls := 0, kind := BitVec.ofNat 4 kFault, op := opNone, dest := BitVec.ofNat 28 (node * 1024 + fmuPort)
             src := BitVec.ofNat 28 (node * 1024 + srcPort) }
    area := faultArea r }

/-! ## The control field (03 R61) -/

/-- A control field: type, class, VC, LSEQ, LACK, LNAK and the two credit returns. -/
structure Ctl where
  ftype : BitVec 3 := 0
  cls : BitVec 3 := 0
  vc : BitVec 1 := 0
  lseq : BitVec 8 := 0
  lack : BitVec 8 := 0
  lnak : BitVec 1 := 0
  cra : BitVec 9 := 0
  crb : BitVec 9 := 0
  deriving DecidableEq, Repr

def Ctl.toBits (c : Ctl) : BitVec 64 :=
  c.ftype ++ c.cls ++ c.vc ++ (0 : BitVec 1) ++ c.lseq ++ c.lack ++ c.lnak ++ (0 : BitVec 2) ++
  c.cra ++ c.crb ++ (0 : BitVec 19)
def Ctl.ofBits (b : BitVec 64) : Ctl :=
  { ftype := b.extractLsb' 61 3, cls := b.extractLsb' 58 3, vc := b.extractLsb' 57 1
    lseq := b.extractLsb' 48 8, lack := b.extractLsb' 40 8, lnak := b.extractLsb' 39 1
    cra := b.extractLsb' 28 9, crb := b.extractLsb' 19 9 }

/-- A credit field: valid, VC number `2·class + VC`, count (03 R61). -/
def creditField (vc n : Nat) : BitVec 9 :=
  (1 : BitVec 1) ++ BitVec.ofNat 4 vc ++ BitVec.ofNat 4 n
/-- The VC number and count of a credit field, none where it is not valid or names no class. -/
def creditOf (b : BitVec 9) : Option (Nat × Nat) :=
  if bit b 8 && fld b 7 4 < 12 then some (fld b 7 4, fld b 3 0) else none

/-- Flit types (03 R62). -/
def ftIdle : BitVec 3 := 0
def ftHead : BitVec 3 := 1
def ftSingle : BitVec 3 := 2
def ftBody : BitVec 3 := 3
def ftTail : BitVec 3 := 4

/-! ## FEC (05 R110-R112) -/

/-- Whether a number is a power of two. -/
def isPow2 (n : Nat) : Bool := (List.range 9).any fun k => n == 2 ^ k

/-- The columns h(0) to h(271), rising from 3, powers of two left out (05 R111). -/
def fecColumns : List Nat := (((List.range 279).map (· + 3)).filter fun n => !isPow2 n)

/-- The syndrome part c[8:0] of 272 bits given as the list of set positions. -/
def fecSyn (q : BitVec 272) : Nat :=
  ((List.range 272).zip fecColumns).foldl
    (fun a e => if q.getLsbD e.1 then Nat.xor a e.2 else a) 0

/-- The parity of a word. -/
def parity {w : Nat} (q : BitVec w) : Bool :=
  (List.range w).foldl (fun a i => a != q.getLsbD i) false

/-- The ten check bits of a quarter, c[0] lowest (05 R111). -/
def fecCheck (q : BitVec 272) : BitVec 10 :=
  let s := fecSyn q
  BitVec.ofNat 1 (b2n (parity q != parity (BitVec.ofNat 9 s))) ++ BitVec.ofNat 9 s

/-- What the decoder finds in a quarter of 282 bits (05 R112). -/
inductive FecOut where
  | clean | flip (b : Nat) | bad
  deriving DecidableEq, Repr

/-- The decoding of a quarter (05 R112). -/
def fecDecode (q : BitVec 282) : FecOut :=
  let s := Nat.xor (fecSyn (q.extractLsb' 0 272)) (q.extractLsb' 272 9).toNat
  let p := parity q
  if s == 0 && !p then .clean
  else if p && s == 0 then .flip 281
  else if !p then .bad
  else match (List.range 9).find? fun k => s == 2 ^ k with
    | some k => .flip (272 + k)
    | none =>
      match ((List.range 272).zip fecColumns).find? fun e => e.2 == s with
      | some e => .flip e.1
      | none => .bad

/-- The covered bits of quarter q of a flit (03 R60). -/
def Flit.quarter (x : Flit) (q : Nat) : BitVec 272 :=
  x.c.extractLsb' (16 * q) 16 ++ x.d.extractLsb' (256 * q) 256

/-- A quarter with its check bits, as sent. -/
def Flit.coded (x : Flit) (q : Nat) : BitVec 282 := fecCheck (x.quarter q) ++ x.quarter q

/-- Flip the bits of a quarter that arrive wrong. `noise` lists positions 282·q + i.
DESIGN CHOICE (log entry 115). -/
def flipBits (q : Nat) (noise : List Nat) (b : BitVec 282) : BitVec 282 :=
  noise.foldl (fun a n =>
    if n / 282 = q then a ^^^ (BitVec.ofNat 282 (2 ^ (n % 282))) else a) b

/-- A quarter as the decoder leaves it, or none; with whether it was corrected and where. -/
def fecQuarter (b : BitVec 282) : Option (BitVec 272 × Option Nat) :=
  match fecDecode b with
  | .clean => some (b.extractLsb' 0 272, none)
  | .flip i => some ((b ^^^ BitVec.ofNat 282 (2 ^ i)).extractLsb' 0 272, some i)
  | .bad => none

/-- A flit put together from its four quarters. -/
def flitOf (qs : List (BitVec 272)) : Flit :=
  let q (i : Nat) := qs.getD i 0
  { d := (q 3).extractLsb' 0 256 ++ (q 2).extractLsb' 0 256 ++ (q 1).extractLsb' 0 256 ++
      (q 0).extractLsb' 0 256
    c := (q 3).extractLsb' 256 16 ++ (q 2).extractLsb' 256 16 ++ (q 1).extractLsb' 256 16 ++
      (q 0).extractLsb' 256 16 }

/-- The flit as received through the code, none if a quarter cannot be corrected, and the positions
`282·q + i` of the quarters that were (05 R112). DESIGN CHOICE (log entry 115). -/
def fecReceive (x : Flit) (noise : List Nat) : Option Flit × List Nat :=
  let qs := (List.range 4).map fun q => fecQuarter (flipBits q noise (x.coded q))
  let fixed := (qs.zip (List.range 4)).filterMap fun e => (e.1.bind (·.2)).map (· + 282 * e.2)
  (if qs.all (·.isSome) then some (flitOf (qs.filterMap fun e => e.map (·.1))) else none, fixed)

end Sys2Proof.Machine
end

