-- ==== Sys2Proof/Machine/Routing.lean ====
section
/-! DEFINITION. Routing: the tables as units read them, resolution at the injecting NI, and the
action of a stop on a head (04). -/

namespace Sys2Proof.Machine

/-- Actions of a Hop Table entry (04 R88). -/
inductive HopAct where
  | pass | plusY | minusY | eject
  deriving DecidableEq, Repr

/-- The shortest ring direction from a to b on a ring of w: 0 none, 1 rising, 2 falling; a tie
rises (04 R101). -/
def shortDir (w a b : Nat) : Nat :=
  let u := ringUp w a b
  if u == 0 then 0 else if 2 * u ≤ w then 1 else 2

/-- The action of default hop logic at stop s for stop t (04 R101). -/
def defaultHopAct (v : Variant) (s t : Nat) : Option HopAct :=
  if t ≥ nStops v then none
  else if xOf s != xOf t then some .pass
  else match shortDir (ringD v) (yOf s) (yOf t) with
    | 0 => some .eject
    | 1 => some .plusY
    | _ => some .minusY

/-- The action a Hop Table word names (04 R88). -/
def hopActOf (w : Word) : Option HopAct :=
  if bit w 31 then
    match fld w 30 29 with
    | 0 => some .pass
    | 1 => some .plusY
    | 2 => some .minusY
    | _ => some .eject
  else none

/-- What stop s does for destination stop t in epoch e; none where the entry is not valid. -/
def Fabric.hop (f : Fabric) (s t : Nat) (e : BitVec 1) : Option HopAct :=
  if f.defaultHop e then defaultHopAct f.variant s t else hopActOf (f.stopEp s e 0 t)

/-- `PVALID` of local port p at the entry of stop s for itself (04 R88). -/
def Fabric.pvalid (f : Fabric) (s p : Nat) (e : BitVec 1) : Bool :=
  if f.defaultHop e then f.attached (4 * s + p) else bit (f.stopEp s e 0 s) p

/-! ## The Source Route Table in force (04 R84) -/

def Fabric.srtWord (f : Fabric) (p t w : Nat) : Word := f.niEp p f.epoch 0 (3 * t + w)

def Fabric.srtValid (f : Fabric) (p t : Nat) : Bool :=
  if f.beforeTurn1 then t < nStops f.variant else bit (f.srtWord p t 0) 31

/-- `ROWDIR`: 0 none, 1 +X, 2 -X, 3 tie. Default hop logic sends ties in +X, uncounted. -/
def Fabric.srtDir (f : Fabric) (p t : Nat) : Nat :=
  if f.beforeTurn1 then shortDir (ringW f.variant) (xOf (stopOfPort p)) (xOf t)
  else fld (f.srtWord p t 0) 30 29

/-- The state of a port as an NI sees it; before Turn 1 every port number counts as open. DESIGN CHOICE
(log entry 176). -/
def Fabric.srtPstate (f : Fabric) (p t port : Nat) : Nat :=
  if f.beforeTurn1 then 0 else fld (f.srtWord p t 0) (17 + 2 * port) (16 + 2 * port)

def Fabric.srtPermit (f : Fabric) (p t dom : Nat) : Bool :=
  f.beforeTurn1 || bit (f.srtWord p t (1 + dom / 32)) (dom % 32)

/-! ## Resolution at the injecting NI (04 R83) -/

inductive Resolve where
  | refuse (st : Status)
  | miss (ident : BitVec 15)
  | go (rport : Nat) (fwd : Bool) (dir : Nat)
  deriving DecidableEq, Repr

/-- Steps 6-9: the entry of the port's stop. `req`: steps 7 and 8 apply. -/
def Fabric.resolvePort (f : Fabric) (p rport : Nat) (fwd req : Bool) (dom : Nat) : Resolve :=
  let t := stopOfPort rport
  if !f.srtValid p t then .refuse .unreachable
  else if req && f.srtPstate p t (localOfPort rport) ≥ 2 then .refuse .unreachable
  else if req && f.srtPstate p t (localOfPort rport) == 1 then .refuse .targetOff
  else if req && !f.srtPermit p t dom then .refuse .domainDeny
  else .go rport fwd (f.srtDir p t)

/-- A Route Cache or Group Cache hit (04 R92; 09 R211). -/
def cacheHit (c : List CacheEnt) (key : Nat) (e : BitVec 1) : Option (List Word) :=
  match c.find? fun x => x.key == key && x.epoch == e with
  | some x => some x.words
  | none => none

/-- The gateway port of a destination node in the Gateway Select Table in force (04 R98). -/
def Fabric.gwSelect (f : Fabric) (p node : Nat) : Option Nat :=
  let w := f.niEp p f.epoch 1 (node % 16)
  if f.beforeTurn1 || !bit w 31 then none else some (fld w 9 0)

/-- Steps 1-9 for a packet injected at port p (04 R83; 18 R397). -/
def Fabric.resolve (f : Fabric) (p : Nat) (h : Header) : Resolve :=
  let req := isRequestKind h.kind.toNat
  let dom := h.domain.toNat
  if h.dmode == 1 then
    if f.beforeTurn1 then .refuse .unreachable
    else match cacheHit (f.ni p).ini.rc (fld h.dest 14 0) f.epoch with
      | some ws => f.resolvePort p (fld (ws.headD 0) 9 0) false req dom
      | none => .miss (BitVec.ofNat 15 (fld h.dest 14 0))
  else
    let node := fld h.dest 25 10
    if node == f.node p && h.dmode == 0 then
      if fld h.dest 9 0 < nPorts f.variant then f.resolvePort p (fld h.dest 9 0) false req dom
      else .refuse .unreachable
    else if f.crawl then .refuse .unreachable
    else match f.gwSelect p node with
      | some g => f.resolvePort p g true req dom
      | none => .refuse .unreachable

/-! ## Links and outputs -/

/-- The next stop over a ring output, past bypassed stops (05 R120). -/
def Fabric.nbrFuel (f : Fabric) : Nat → Nat → Nat → Nat
  | 0, s, o => neighbour f.variant s o
  | n + 1, s, o =>
    let t := neighbour f.variant s o
    if (f.stopU t).spare.bypass then Fabric.nbrFuel f n t o else t

def Fabric.nbr (f : Fabric) (s o : Nat) : Nat := f.nbrFuel 15 s o

/-- Whether the link of a ring output, joined links included, crosses to another die (05 R120).
The landing buffer of such a joined link is recorded at the downstream stop. DEDUCED (log entry 160). -/
def Fabric.bridge (f : Fabric) (s o : Nat) : Bool :=
  o < 4 && dieOfStop s != dieOfStop (f.nbr s o)

/-- The sending end of a stop's output. -/
def Fabric.txOf (f : Fabric) (s o : Nat) : LinkTx := (f.stopU s).tx.get o {}
def Fabric.rxOf (f : Fabric) (s i : Nat) : LinkRx := (f.stopU s).rx.get i {}

/-- `DLINE` of a ring output (05 R127). -/
def Fabric.dline (f : Fabric) (s o : Nat) : Bool := o < 4 && bit (f.stopReg s 0x208) o

/-- The VC a head leaves on (04 R90; 05 R108). -/
def Fabric.outVc (f : Fabric) (s input o : Nat) (vc : BitVec 1) : BitVec 1 :=
  if o ≥ 4 then 0
  else if f.dline s o then 1
  else if o ≥ 2 && input < 2 then 0
  else vc

/-- The credits a sender holds for a VC: over a bridge, the landing entries it may still fill (05 R119).
DEDUCED (log entry 116). -/
def LinkTx.creditCount (t : LinkTx) (bridge : Bool) (v : Nat) : Int :=
  if bridge then ((2 - t.used.get v 0 : Nat) : Int) + ((104 - t.shared : Nat) : Int) else t.credits.get v (vcDepth v)

/-- The free credits a stop holds on a ring output for a class on VC 0 (04 R86). -/
def Fabric.freeCredits (f : Fabric) (s o cls : Nat) : Int :=
  (f.txOf s o).creditCount (f.bridge s o) (2 * cls)

/-- The tie register steps (04 R86). -/
def next16 (s : BitVec 16) : BitVec 16 :=
  (s >>> 1) ||| (if (bit s 0 != bit s 2) != (bit s 3 != bit s 5) then 0x8000 else 0)

/-- What a tie register is loaded with: `TIE_SEED` 0x0000 acts as 0x0001 (04 R102). -/
def tieSeed (w : Word) : BitVec 16 := BitVec.ofNat 16 (max 1 (fld w 15 0))

/-- The choice on a row tie: direction, and what it does to the register and the count (04 R86).
DEDUCED (log entry 106). -/
def Fabric.tieChoice (f : Fabric) (p cls : Nat) : Nat × Fabric :=
  if bit (f.niReg p 0x200) 1 then (1, f)
  else
    let s := stopOfPort p
    let cp := f.freeCredits s 0 cls
    let cm := f.freeCredits s 1 cls
    let n := f.ni p
    let cnt (i : Inj) : Inj := { i with ndet := i.ndet + 1 }
    if cp > cm then (1, f.setNi p { n with inj := cnt n.inj })
    else if cm > cp then (2, f.setNi p { n with inj := cnt n.inj })
    else
      (if bit n.inj.lfsr 0 then 2 else 1,
        f.setNi p { n with inj := cnt { n.inj with lfsr := next16 n.inj.lfsr } })

/-! ## A head at a stop (03 R81; 04 R89) -/

inductive StopAct where
  | out (o : Nat)
  | eject (p : Nat)
  | refuse (st : Status)
  | framing
  deriving DecidableEq, Repr

/-- Steps 3 and R89: where a unicast head goes before its port is examined. -/
def Fabric.stopAct (f : Fabric) (s input : Nat) (injDir : BitVec 2) (h : Header) : StopAct :=
  let t := fld h.rport 9 2
  match f.hop s t h.epoch with
  | none => .refuse .unreachable
  | some a =>
    if input ≥ 4 && injDir != 0 then
      if injDir == 3 then .framing else .out (if injDir == 1 then 0 else 1)
    else match a with
      | .eject => .eject (localOfPort h.rport.toNat)
      | .plusY => if input == 3 then .out 3 else .out 2
      | .minusY => if input == 2 then .out 2 else .out 3
      | .pass => if input < 4 then .out input else .refuse .unreachable

/-- Steps 4-7 at the ejecting stop (03 R81; 12 R279, R281; 13 R306). -/
def Fabric.portCheck (f : Fabric) (port : Nat) (h : Header) : Option Status :=
  let sp := f.sport port
  let exempt := h.cls == 0 || h.kind == 14
  if !f.pvalid (stopOfPort port) (localOfPort port) h.epoch then some .unreachable
  else if exempt then none
  else if sp.pwr == .off || sp.pwr == .waking then some .targetOff
  else if sp.fence then some .fenced
  else if !f.accepts port h.domain.toNat then some .domainDeny
  else none

/-- A head that a port's checks refuse counts there, unless the port is not valid (12 R292).
DEDUCED (log entry 90). -/
def Fabric.portRefused (f : Fabric) (port : Nat) (st : Status) : Fabric :=
  if st = .unreachable then f else f.updSport port fun x => { x with refused := x.refused + 1 }

/-! ## Answers (03 R76, R78, R80) -/

/-- The class of an answer to a packet (03 R80). -/
def answerClass (h : Header) : BitVec 3 :=
  if h.cls == 0 then 0 else if h.cls == 5 then 5 else if h.cls == 1 then 1 else 3

/-- The header of an answer: it copies TAG, SEQ, DOMAIN, OP, ADDR and TRACE (03 R67, R76, R78). -/
def answerHdr (h : Header) (kind : Nat) (st : Status) (node srcPort : Nat) : Header :=
  { cls := answerClass h, kind := BitVec.ofNat 4 kind, domain := h.domain, op := h.op
    trace := h.trace, tag := h.tag, seq := h.seq, addr := h.addr, dest := h.src
    src := BitVec.ofNat 28 (node * 2 ^ 10 + srcPort), echo := h.mark, len := 1, bcnt := 0
    status := BitVec.ofNat 4 (statusCode st) }

/-- The answer a refusing unit builds, none for a kind that is not answered (03 R69, R80). -/
def refusal (h : Header) (st : Status) (node srcPort : Nat) : Option Packet :=
  match answerKind h.kind.toNat with
  | some k => some { hdr := answerHdr h k st node srcPort, aux := if k == 6 then mcAckAux 0 0 (BitVec.allOnes 26) else 0 }
  | none => none

end Sys2Proof.Machine
end

