-- ==== Sys2Proof/Machine/LinkOps.lean ====
section
/-! DEFINITION. Link ends: credits, retry, what a sender puts on the wire and what a receiver does
with a flit; the withdrawal of a link (05 R104-R106, R113-R119). -/

namespace Sys2Proof.Machine

/-- An end of a link: output `o` of a stop with the input fed by the same neighbour, or an NI. -/
inductive End where
  | st (s o : Nat)
  | ni (p : Nat)
  deriving DecidableEq, Repr

/-- The input that arrives at a stop's link end. -/
def inputOf (o : Nat) : Nat := if o < 4 then opposite o else o

def End.ofLink : LinkEnd → End
  | .stopIn s i => .st s (inputOf i)
  | .niIn p => .ni p

/-- The other end of the link. -/
def Fabric.peer (f : Fabric) : End → End
  | .st s o => if o < 4 then .st (f.nbr s o) (opposite o) else .ni (4 * s + (o - 4))
  | .ni p => .st (stopOfPort p) (4 + localOfPort p)

def Fabric.tx (f : Fabric) : End → LinkTx
  | .st s o => f.txOf s o
  | .ni p => (f.ni p).tx
def Fabric.rx (f : Fabric) : End → LinkRx
  | .st s o => f.rxOf s (inputOf o)
  | .ni p => (f.ni p).rx
def Fabric.setTx (f : Fabric) (e : End) (t : LinkTx) : Fabric :=
  match e with
  | .st s o => f.updStop s fun x => { x with tx := x.tx.put o t }
  | .ni p => f.updNi p fun n => { n with tx := t }
def Fabric.setRx (f : Fabric) (e : End) (r : LinkRx) : Fabric :=
  match e with
  | .st s o => f.updStop s fun x => { x with rx := x.rx.put (inputOf o) r }
  | .ni p => f.updNi p fun n => { n with rx := r }
def Fabric.updTx (f : Fabric) (e : End) (g : LinkTx → LinkTx) : Fabric := f.setTx e (g (f.tx e))
def Fabric.updRx (f : Fabric) (e : End) (g : LinkRx → LinkRx) : Fabric := f.setRx e (g (f.rx e))

/-- The queue of a VC at the receiving side of an end. -/
def Fabric.vcQ (f : Fabric) (e : End) (vc : Nat) : List QPkt :=
  match e with
  | .st s o => (f.stopU s).vq.get (12 * inputOf o + vc) []
  | .ni p => (f.ni p).vq.get vc []
def Fabric.setVcQ (f : Fabric) (e : End) (vc : Nat) (q : List QPkt) : Fabric :=
  match e with
  | .st s o => f.updStop s fun x => { x with vq := x.vq.put (12 * inputOf o + vc) q }
  | .ni p => f.updNi p fun n => { n with vq := n.vq.put vc q }

/-- Flits of a packet still in its buffer. -/
def QPkt.held (q : QPkt) : Nat := b2n q.headHeld + q.body.length
/-- Flits in a VC's buffer. -/
def qOcc (q : List QPkt) : Nat := q.foldl (fun a x => a + x.held) 0

/-- Whether the link of an end is a Die Bridge, and whether it can carry flits. -/
def Fabric.endBridge (f : Fabric) : End → Bool
  | .st s o => f.bridge s o
  | .ni _ => false
def Fabric.linkUp (f : Fabric) (e : End) : Bool :=
  match e with
  | .st s o => o ≥ 4 || (f.tx (.st s o)).state == .up || (f.tx (.st s o)).state == .joined
  | .ni _ => true

/-- An end raises a fault with its unit's source id. -/
def Fabric.raiseEnd (f : Fabric) (e : End) (k : FaultKind) (info : Nat) : Fabric :=
  match e with
  | .st s _ => f.raiseStop s k info
  | .ni p => f.raiseNi p k info
/-- The input number an end reports: the stop's, or 0 for an NI (16 R354). -/
def End.input : End → Nat
  | .st _ o => inputOf o
  | .ni _ => 0

/-! ## Credits (05 R104, R119) -/

/-- Credits are owed for a VC, the youngest of the list. -/
def oweList (l : List (Nat × Nat)) (v n : Nat) : List (Nat × Nat) :=
  match l.getLast? with
  | some (a, k) => if a = v then l.dropLast ++ [(a, k + n)] else l ++ [(v, n)]
  | none => [(v, n)]
def Fabric.owe (f : Fabric) (e : End) (vc n : Nat) : Fabric :=
  if n = 0 then f else f.updRx e fun r => { r with owed := oweList r.owed vc n }

/-- An input frees entries of a VC. Behind a bridge the landing buffer has owed them already (R119). -/
def Fabric.oweIn (f : Fabric) (e : End) (vc n : Nat) : Fabric :=
  if f.endBridge e then f else f.owe e vc n

/-- Whether a sender may send a new flit on a downstream VC. -/
def Fabric.canSend (f : Fabric) (e : End) (vc : Nat) : Bool :=
  let t := f.tx e
  if f.endBridge e then t.used.get vc 0 < 2 || t.shared < 104
  else decide (t.credits.get vc (vcDepth vc) > 0)

/-- A sender takes one credit. -/
def LinkTx.spend (t : LinkTx) (bridge : Bool) (vc : Nat) : LinkTx :=
  if bridge then
    { t with shared := if t.used.get vc 0 ≥ 2 then t.shared + 1 else t.shared
             used := t.used.upd vc 0 (· + 1) }
  else { t with credits := t.credits.upd vc (vcDepth vc) (· - 1) }

/-- A sender is given n credits, or has them retracted. -/
def LinkTx.refund1 (t : LinkTx) (vc : Nat) : LinkTx :=
  let u := t.used.get vc 0 - 1
  { t with used := t.used.put vc u, shared := if u ≥ 2 then t.shared - 1 else t.shared }
def LinkTx.refund (t : LinkTx) (bridge : Bool) (vc n : Nat) : LinkTx :=
  if bridge then (List.range n).foldl (fun a _ => a.refund1 vc) t
  else { t with credits := t.credits.upd vc (vcDepth vc) (· + n) }
def LinkTx.retract (t : LinkTx) (bridge : Bool) (vc n : Nat) : LinkTx :=
  if bridge then (List.range n).foldl (fun a _ => a.spend true vc) t
  else { t with credits := t.credits.upd vc (vcDepth vc) (· - n) }

/-- The oldest credits owed to a VC, at most n, and what stays owed. -/
def takeVcOwed (v : Nat) : Nat → List (Nat × Nat) → Nat × List (Nat × Nat)
  | _, [] => (0, [])
  | n, (a, k) :: l =>
    if a = v then
      let (m, r) := takeVcOwed v (n - k) l
      (min n k + m, if n < k then (a, k - n) :: r else r)
    else
      let (m, r) := takeVcOwed v n l
      (m, (a, k) :: r)

/-- The two credit fields of the next flit, for the two VCs whose oldest owed credit is oldest: the
credits they carry and what stays owed (R104). -/
def takeOwed (l : List (Nat × Nat)) : List (Nat × Nat) × List (Nat × Nat) :=
  match l with
  | [] => ([], [])
  | (a, _) :: _ =>
    let (m, r) := takeVcOwed a 8 l
    match r.find? fun x => x.1 != a with
    | none => ([(a, m)], r)
    | some (b, _) =>
      let (n, r2) := takeVcOwed b 8 r
      ([(a, m), (b, n)], r2)

def credFields (cs : List (Nat × Nat)) : BitVec 9 × BitVec 9 :=
  match cs with
  | [] => (0, 0)
  | [a] => (creditField a.1 a.2, 0)
  | a :: b :: _ => (creditField a.1 a.2, creditField b.1 b.2)

/-! ## Sending -/

/-- Limits of unacknowledged flits (R113) and of the acknowledgement timer (R114). -/
def retryLimit (bridge : Bool) : Nat := if bridge then 255 else 63
def ackLimit (bridge : Bool) : Nat := if bridge then 80 else 36
def silenceLimit (bridge : Bool) : Nat := if bridge then 160 else 64

/-- LACK and LNAK of the next flit an end sends. An LNAK goes with the number of the last flit accepted
at its detection (R114 rule 1). -/
def Fabric.withAck (f : Fabric) (e : End) (c : Ctl) : Ctl :=
  let r := f.rx e
  { c with lack := if r.lnak then r.retracted.getD r.lack else r.lack, lnak := BitVec.ofNat 1 (b2n r.lnak) }

/-- A new flit goes out on an end (R104, R113). `inj` is the sideband of an NI's head (04 R85). -/
def Fabric.sendNew (f : Fabric) (e : End) (ftype : BitVec 3) (vc : Nat) (d : BitVec 1024)
    (inj : BitVec 4) : Fabric :=
  let br := f.endBridge e
  let (cs, rest) := takeOwed (f.rx e).owed
  let (a, b) := credFields cs
  let t := f.tx e
  let c := f.withAck e { ftype := ftype, cls := BitVec.ofNat 3 (vc / 2), vc := BitVec.ofNat 1 vc
                         lseq := t.nextSeq, cra := a, crb := b }
  let ep : BitVec 1 := if ftype == ftHead || ftype == ftSingle
    then (Header.ofBits (d.extractLsb' 768 256)).epoch else t.eps.get vc 0
  let x : Flit := { d := d, c := Ctl.toBits c, ep := ep, side := inj }
  let t2 := { t.spend br vc with
    eps := t.eps.put vc ep
    nextSeq := t.nextSeq + 1, retry := t.retry ++ [x], wire := t.wire ++ [x]
    ackAt := match t.ackAt with
      | some k => some k
      | none => some (f.time.fcc + ackLimit br * f.unit) }
  (f.setTx e t2).updRx e fun r => { r with owed := rest, lnak := false }

/-- A flit is sent again: its LACK and LNAK carry their current values (R113). -/
def Fabric.sendAgain (f : Fabric) (e : End) : Fabric :=
  let t := f.tx e
  match t.retry[t.retry.length - t.resend]? with
  | none => f.setTx e { t with resend := 0 }
  | some x =>
    let c := f.withAck e (Ctl.ofBits x.c)
    (f.setTx e { t with resend := t.resend - 1, wire := t.wire ++ [{ x with c := Ctl.toBits c }] }).updRx e
      fun r => { r with lnak := false }

/-- The IDLE flit an end sends when it has nothing else to send (03 R62; 05 R106). -/
def Fabric.idleFlit (f : Fabric) (e : End) : Flit × Fabric :=
  let (cs, rest) := takeOwed (f.rx e).owed
  let (a, b) := credFields cs
  let t := f.tx e
  let c := f.withAck e { ftype := ftIdle, lseq := t.nextSeq, cra := a, crb := b }
  ({ d := 0, c := Ctl.toBits c },
    (f.setTx e { t with idleRec := t.idleRec ++ cs.map fun k => (t.nextSeq - 1, k.1, k.2) }).updRx e
      fun r => { r with owed := rest, lnak := false })

/-- The sender rewinds to its oldest unacknowledged flit (R114 rule 2). What is on the wire arrives. -/
def LinkTx.rewind (t : LinkTx) (deadline : Nat) : LinkTx :=
  { t with resend := t.retry.length, retries := t.retries + 1, rewound := true
           ackAt := if t.retry.isEmpty then none else some deadline }

/-- An acknowledgement: the flits up to `lack` leave the retry buffer (R113). -/
def ackedCount (retry : List Flit) (lack : BitVec 8) : Nat :=
  match retry.findIdx? fun x => (Ctl.ofBits x.c).lseq == lack with
  | some i => i + 1
  | none => 0
def LinkTx.acked (t : LinkTx) (lack : BitVec 8) (deadline : Nat) : LinkTx :=
  let n := ackedCount t.retry lack
  if n = 0 then t
  else
    let r := t.retry.drop n
    { t with retry := r, resend := min t.resend r.length, run := 0, rewound := false
             ackAt := if r.isEmpty then none else some deadline
             idleRec := t.idleRec.filter fun k => (ackedCount t.retry (k.1 + 1)) > n || ackedCount t.retry (k.1 + 1) == 0 }

/-! ## Withdrawal (05 R115) -/

/-- The copies for an output will not be sent. DEDUCED (log entry 31). -/
def Route.kill (r : Route) (o : Nat) (st : Status) : Route :=
  match r with
  | .go bs => .go (bs.map fun b => if b.out == o && !b.wantsSlot && !b.tailSent then { b with dead := some st } else b)
  | r => r

/-- The VC a flit's control field names. -/
def Flit.vcIdx (x : Flit) : Nat := 2 * (Ctl.ofBits x.c).cls.toNat + (Ctl.ofBits x.c).vc.toNat

/-- The flits a landing buffer still holds for a VC. -/
def landedOn (l : List Flit) (v : Nat) : List Flit := l.filter fun x => x.vcIdx == v

/-- A `TAIL` of zeros behind each packet that is open in a landing buffer (R115 rule 2).
DEDUCED (log entry 125). -/
def closeLanded (l : List Flit) : List Flit :=
  l ++ ((List.range 12).filter fun v => match (landedOn l v).getLast? with
    | some x => (Ctl.ofBits x.c).ftype == ftHead || (Ctl.ofBits x.c).ftype == ftBody
    | none => false).map fun v =>
      { c := Ctl.toBits { ftype := ftTail, cls := BitVec.ofNat 3 (v / 2), vc := BitVec.ofNat 1 v } }

/-- One end of the link of a ring output is withdrawn: the copies held for it are dead, and packets
open on its input are closed. DEDUCED (log entry 31). -/
def Fabric.withdrawQuiet (f : Fabric) (s o : Nat) : Fabric :=
  let t := f.txOf s o
  let i := inputOf o
  let landed := (f.rxOf s i).landing
  f.updStop s fun x => { x with
    tx := x.tx.put o { ({} : LinkTx) with state := .withdrawn, retries := t.retries, run := max t.run (x.rx.get i {}).run }
    rx := x.rx.put i { ({} : LinkRx) with corr := (x.rx.get i {}).corr, pad := (x.rx.get i {}).pad
                                          xMeas := (x.rx.get i {}).xMeas
                                          landing := closeLanded landed
                                          dropVc := (x.rx.get i {}).dropVc.filter fun v => !(landedOn landed v).isEmpty }
    vq := x.vq.mapAll fun k q =>
      let q1 := q.map fun p => { p with route := p.route.kill o .linkFail }
      -- packets still open on the input are closed with a TAIL of zeros
      if k / 12 == i && (landedOn landed (k % 12)).isEmpty then q1.map fun p => if p.tailIn then p else { p with tailIn := true, body := p.body ++ [0] }
      else q1 }

/-- One end withdraws the link of its ring output and reports it. -/
def Fabric.withdrawEnd (f : Fabric) (s o : Nat) : Fabric :=
  if (f.txOf s o).state == .withdrawn then f
  else (f.withdrawQuiet s o).raiseStop s .linkWithdrawn (o + 16 * b2n (f.bridge s o))

/-- A retry has failed: the end that counts 8 withdraws the link (R114 rule 4, R115).
DESIGN CHOICE (log entry 15). -/
def Fabric.checkRun (f : Fabric) (e : End) : Fabric :=
  match e with
  | .st s o => if o < 4 && ((f.tx e).run ≥ 8 || (f.rx e).run ≥ 8) then f.withdrawEnd s o else f
  | .ni _ => f

/-! ## Receiving (03 R63; 05 R105, R106, R112-R114) -/

/-- A flit discarded on the way to the next `TAIL` owes its credit (R63). -/
def Fabric.dropFlit (f : Fabric) (e : End) (vc : Nat) (ft : BitVec 3) : Fabric :=
  (f.oweIn e vc 1).updRx e fun r =>
    { r with dropVc := if ft == ftTail then r.dropVc.filter (· != vc) else r.dropVc }

/-- The last packet of a queue is still open. -/
def lastOpen (q : List QPkt) : Bool :=
  match q.getLast? with
  | some p => !p.tailIn
  | none => false

/-- Add a flit to the last packet of a queue. -/
def addFlit (q : List QPkt) (d : BitVec 1024) (tail : Bool) : List QPkt :=
  match q.getLast? with
  | some p => q.dropLast ++ [{ p with body := p.body ++ [d], tailIn := tail }]
  | none => q

/-- A packet that is open on a VC is closed with a `TAIL` of zeros in place of a discarded flit, which
else owes its credit. DEDUCED (log entry 12). -/
def Fabric.closeVc (f : Fabric) (e : End) (vc : Nat) : Fabric :=
  let q := f.vcQ e vc
  if lastOpen q then f.setVcQ e vc (addFlit q 0 true) else f.oweIn e vc 1

/-- Every later flit of a VC is discarded up to the next `TAIL` (R63). -/
def Fabric.dropOn (f : Fabric) (e : End) (vc : Nat) : Fabric :=
  f.updRx e fun r => { r with dropVc := if r.dropVc.contains vc then r.dropVc else r.dropVc ++ [vc] }

/-- A framing error: the flit is discarded, later ones up to the next TAIL, and FRAME_ERR is raised. -/
def Fabric.frameErr (f : Fabric) (e : End) (vc : Nat) : Fabric :=
  ((f.closeVc e vc).dropOn e vc).raiseEnd e .frameErr (infoIcv e.input (vc / 2) (vc % 2))

/-- A flit that finds no free entry is discarded, as are the later flits of its packet (R105). -/
def Fabric.overrun (f : Fabric) (e : End) (vc : Nat) (ft : BitVec 3) : Fabric :=
  let f1 := f.closeVc e vc
  let f2 := if ft == ftTail || ft == ftSingle then f1 else f1.dropOn e vc
  f2.raiseEnd e .creditOverrun (infoIcv e.input (vc / 2) (vc % 2))

/-- A flit accepted in sequence enters the buffer of its VC (R63, R105). DEDUCED (log entry 12). -/
def Fabric.enterVc (f : Fabric) (e : End) (x : Flit) : Fabric :=
  let c := Ctl.ofBits x.c
  let vc := 2 * c.cls.toNat + c.vc.toNat
  if c.cls.toNat > 5 then
    -- a reserved class has no buffer, so its flits owe no credit
    if !(f.rx e).dropVc.contains vc then
      (f.dropOn e vc).raiseEnd e .frameErr (infoIcv e.input c.cls.toNat c.vc.toNat)
    else if c.ftype == ftTail then f.updRx e fun r => { r with dropVc := r.dropVc.filter (· != vc) }
    else f
  else if (f.rx e).dropVc.contains vc then f.dropFlit e vc c.ftype
  else
    let q := f.vcQ e vc
    let head := c.ftype == ftHead || c.ftype == ftSingle
    if c.ftype.toNat > 4 || (head && lastOpen q) || (!head && !lastOpen q) then f.frameErr e vc
    else if qOcc q ≥ vcDepth vc then f.overrun e vc c.ftype
    else if head then
      f.setVcQ e vc (q ++ [{ hdr := Header.ofBits (x.d.extractLsb' 768 256)
                             pay := x.d.extractLsb' 0 768, tailIn := c.ftype == ftSingle
                             at_ := f.time.fcc, side := x.side }])
    else f.setVcQ e vc (addFlit q x.d (c.ftype == ftTail))

/-- Apply a list of credit returns to a sender. -/
def LinkTx.applyCredits (t : LinkTx) (bridge : Bool) (cs : List (Nat × Nat)) : LinkTx :=
  cs.foldl (fun a k => a.refund bridge k.1 k.2) t

/-- The credits a control field carries. -/
def ctlCredits (c : Ctl) : List (Nat × Nat) := (creditOf c.cra).toList ++ (creditOf c.crb).toList

/-- The credit returns that the receiver has retracted are owed again, as the oldest (R106 rule 4).
DEDUCED (log entry 141). -/
def Fabric.sendCreditsAgain (f : Fabric) (e : End) : Fabric :=
  match (f.rx (f.peer e)).retracted with
  | none => f
  | some l =>
    let back := ((f.tx e).acked l 0).idleRec.map (·.2)
    ((f.updTx e fun t => { t with idleRec := [] }).updRx e fun r => { r with owed := back ++ r.owed }).updRx
      (f.peer e) fun r => { r with retracted := none }

/-- LACK and LNAK of an intact flit act on the reverse sender (R106 rule 4, R113, R114). -/
def Fabric.takeAck (f : Fabric) (e : End) (c : Ctl) : Fabric :=
  let dl := f.time.fcc + ackLimit (f.endBridge e) * f.unit
  let f1 := if c.lnak == 1 || ackedCount (f.tx e).retry c.lack > 0 then f.sendCreditsAgain e else f
  f1.updTx e fun t => let t1 := t.acked c.lack dl; if c.lnak == 1 then t1.rewind dl else t1

/-- An uncorrectable flit (R106 rule 3, R114 rules 1 and 4). `next`: it was flit L + 1. -/
def Fabric.badFlit (f : Fabric) (e : End) (next : Bool) : Fabric :=
  let br := f.endBridge e
  let r := f.rx e
  if r.discarding then
    if next then (f.updRx e fun r => { r with run := r.run + 1 }).checkRun e else f
  else
    let f1 := f.setTx e (r.idleApplied.foldl (fun t k => t.retract br k.1 k.2) (f.tx e))
    let f2 := f1.updRx e fun r =>
      { r with discarding := true, lnak := true, idleApplied := [], retracted := some (r.retracted.getD r.lack) }
    let f3 := match e with
      | .st s o => if o < 4 then f2.updStop s fun x =>
          { x with wear := x.wear.upd (inputOf o) {} fun w => { w with retriesMs := w.retriesMs + 1 } } else f2
      | .ni _ => f2
    f3.raiseEnd e .linkRetry ((match e with | .st _ o => o | .ni _ => 0) + r.lack.toNat * 256)

/-- Corrections counted per wire at a ring input (17 R382) and in CORR (05 R112). -/
def Fabric.countCorr (f : Fabric) (e : End) (ps : List Nat) : Fabric :=
  let f1 := f.updRx e fun r => { r with corr := r.corr + BitVec.ofNat 12 ps.length }
  match e with
  | .st s o =>
    if o < 4 then
      let wire (p : Nat) : Nat := if f.bridge s o then p % 282 else 4 * (p % 282) + p / 282
      f1.updStop s fun x => { x with wear := x.wear.upd (inputOf o) {} fun w =>
        { w with wcount := ps.foldl (fun m p => m.upd (wire p) 0 fun c => min 65535 (c + 1)) w.wcount
                 wms := ps.foldl (fun m p => m.upd (wire p) 0 (· + 1)) w.wms } }
    else f1
  | .ni _ => f1

/-- A flit that arrives intact (R106 rules 1 and 2, R113, R114). DEDUCED (log entry 141). -/
def Fabric.intactFlit (f : Fabric) (e : End) (x : Flit) : Fabric :=
  let c := Ctl.ofBits x.c
  let br := f.endBridge e
  let f1 := (f.updRx e fun r => { r with lastIntact := f.time.fcc }).takeAck e c
  if c.ftype == ftIdle then
    if (f1.rx e).retracted.isSome then f1
    else (f1.updTx e fun t => t.applyCredits br (ctlCredits c)).updRx e fun r =>
      { r with idleApplied := r.idleApplied ++ ctlCredits c }
  else
    let r := f1.rx e
    if c.lseq == r.lack + 1 then
      let f2 := f1.updRx e fun r => { r with lack := c.lseq, discarding := false, idleApplied := [], run := 0 }
      let f3 := f2.updTx e fun t => t.applyCredits br (ctlCredits c)
      if br then f3.updRx e fun r => { r with landing := r.landing ++ [{ x with at_ := f.time.fcc }] }
      else f3.enterVc e x
    else f1

/-- The next flit on the wire towards an end, or the IDLE formed on the spot, as the link
delivers it. -/
def Fabric.arrive (f : Fabric) (e : End) : Flit × Fabric :=
  let p := f.peer e
  let t := f.tx p
  match t.wire with
  | x :: xs => (x, f.setTx p { t with wire := xs })
  | [] => f.idleFlit p

/-- FLIT_RECEIVE at an end (05 R112). -/
def Fabric.receive (f : Fabric) (e : End) (noise : List Nat) : Fabric :=
  let (x, f1) := f.arrive e
  let (y, fixed) := fecReceive x noise
  let f2 := f1.countCorr e fixed
  match y with
  | none => f2.badFlit e ((Ctl.ofBits x.c).ftype != ftIdle && (Ctl.ofBits x.c).lseq == (f2.rx e).lack + 1)
  | some y => f2.intactFlit e { y with ep := x.ep, side := x.side }

/-! ## Taking packets out of a buffer -/

/-- Flits that a packet consumed at once frees: all it holds. -/
def Fabric.freePkt (f : Fabric) (e : End) (vc : Nat) (q : QPkt) : Fabric := f.owe e vc q.held

/-- The oldest complete packet in the receive buffer of an NI that satisfies a test, with the
buffer without it and its credits owed. VCs are searched from 0. -/
def takeVc (t : QPkt → Bool) (f : Fabric) (p : Nat) : List Nat → Option (QPkt × Fabric)
  | [] => none
  | v :: vs =>
    match (f.ni p).vq.get v [] with
    | [] => takeVc t f p vs
    | q :: qs =>
      if q.tailIn && t q then some (q, ((f.setVcQ (.ni p) v qs).freePkt (.ni p) v q))
      else takeVc t f p vs

/-- The flits that a packet holds in its buffer move to the unit that takes it. -/
def QPkt.sink (q : QPkt) : QPkt :=
  { q with headHeld := false, taken := q.taken ++ q.body, body := [] }
/-- Some of the packet has left its buffer for the unit that takes it. -/
def QPkt.begun (q : QPkt) : Bool := !q.headHeld

/-- The packet a buffered entry holds. -/
def QPkt.packet (q : QPkt) : Packet := packetOf q.hdr q.pay (q.taken ++ q.body)

/-- Fewer or more flits arrived than `LEN` says (05 R116). DEDUCED (log entry 142). -/
def QPkt.truncated (q : QPkt) : Bool := q.taken.length + q.body.length + 1 != q.hdr.len.toNat

end Sys2Proof.Machine
end

