-- ==== Sys2Proof/Machine/Formats.lean ====
section
/-! DEFINITION. Number formats and conversions, computed exactly on values ±mag·2^e (11). -/

namespace Sys2Proof.Machine

/-- The value of an element. A finite value is ±mag·2^e; zero keeps its sign. -/
inductive Val where
  | nan
  | inf (neg : Bool)
  | fin (neg : Bool) (mag : Nat) (e : Int)
  deriving DecidableEq, Repr

/-- A floating-point layout: exponent bits, significand bits, bias, whether it has infinities, and
whether E and M all ones is the only NaN (11 R262). -/
structure FloatFmt where
  eb : Nat
  mb : Nat
  bias : Nat
  hasInf : Bool
  oneNan : Bool := false
  deriving DecidableEq, Repr

/-- The floating-point formats, codes 0-5 (11 R262). -/
def floatFmt (code : Nat) : Option FloatFmt :=
  match code with
  | 0 => some ⟨11, 52, 1023, true, false⟩
  | 1 => some ⟨8, 23, 127, true, false⟩
  | 2 => some ⟨5, 10, 15, true, false⟩
  | 3 => some ⟨8, 7, 127, true, false⟩
  | 4 => some ⟨5, 2, 15, true, false⟩
  | 5 => some ⟨4, 3, 7, false, true⟩
  | _ => none

/-- The element layout of the MX float formats, codes 6-9 (11 R262, R264). -/
def mxElemFmt (code : Nat) : Option FloatFmt :=
  match code with
  | 6 => some ⟨4, 3, 7, false, true⟩
  | 7 => some ⟨3, 2, 3, false, false⟩
  | 8 => some ⟨2, 3, 1, false, false⟩
  | 9 => some ⟨2, 1, 1, false, false⟩
  | _ => none

/-- Block formats: codes 6-10 and 15. -/
def isBlockFmt (code : Nat) : Bool := (6 ≤ code && code ≤ 10) || code == 15
/-- Integer formats: codes 11-14. -/
def isIntFmt (code : Nat) : Bool := 11 ≤ code && code ≤ 14

/-- Size in bytes of an element or a block (11 R262). -/
def fmtSize (code : Nat) : Nat :=
  match code with
  | 0 => 8 | 1 => 4 | 2 => 2 | 3 => 2 | 4 => 1 | 5 => 1 | 6 => 33 | 7 => 25 | 8 => 25
  | 9 => 17 | 10 => 33 | 11 => 1 | 12 => 2 | 13 => 4 | 14 => 8 | _ => 49

/-- Elements per unit: 32 in a block. -/
def fmtElems (code : Nat) : Nat := if isBlockFmt code then 32 else 1

/-! ## Decoding -/

/-- The value of floating-point bits. -/
def FloatFmt.decode (f : FloatFmt) (n : Nat) : Val :=
  let m := n % 2 ^ f.mb
  let e := n / 2 ^ f.mb % 2 ^ f.eb
  let s := n / 2 ^ (f.mb + f.eb) % 2 == 1
  let top := e == 2 ^ f.eb - 1
  if f.hasInf && top then (if m == 0 then .inf s else .nan)
  else if f.oneNan && top && m == 2 ^ f.mb - 1 then .nan
  else if e == 0 then .fin s m (1 - (f.bias : Int) - f.mb)
  else .fin s (2 ^ f.mb + m) ((e : Int) - f.bias - f.mb)

/-- A two's complement number of w bits. -/
def intOf (w n : Nat) : Int := if n % 2 ^ w ≥ 2 ^ (w - 1) then (n % 2 ^ w : Int) - 2 ^ w else n % 2 ^ w

/-- An integer as a value; zero is +0. -/
def valOfInt (i : Int) (e : Int) : Val := .fin (i < 0) i.natAbs e

/-- Scale a value by a power of two. -/
def Val.scale (v : Val) (k : Int) : Val :=
  match v with
  | .fin s m e => .fin s m (e + k)
  | v => v

/-- Bits [w·i + w - 1 : w·i] of a little-endian bit string. -/
def packedElem (bs : Nat) (w i : Nat) : Nat := bs / 2 ^ (w * i) % 2 ^ w

/-- The 32 values of a block (11 R264, R266). -/
def decodeBlock (code : Nat) (bs : Bytes) : List Val :=
  let x : Nat := (bs.headD 0).toNat
  let n := ofBytesLE (bs.drop 1)
  if x == 255 then List.replicate 32 .nan
  else if code == 15 then (List.range 32).map fun i => valOfInt (intOf 12 (packedElem n 12 i)) ((x : Int) - 137)
  else if code == 10 then (List.range 32).map fun i => valOfInt (intOf 8 (packedElem n 8 i)) ((x : Int) - 133)
  else match mxElemFmt code with
    | some f => (List.range 32).map fun i =>
        (f.decode (packedElem n (1 + f.eb + f.mb) i)).scale ((x : Int) - 127)
    | none => []

/-- The values of one unit, an element or a block. -/
def decodeUnit (code : Nat) (bs : Bytes) : List Val :=
  if isBlockFmt code then decodeBlock code bs
  else if isIntFmt code then [valOfInt (intOf (8 * fmtSize code) (ofBytesLE bs)) 0]
  else match floatFmt code with
    | some f => [f.decode (ofBytesLE bs)]
    | none => []

/-- The values of n units. -/
def decodeUnits (code : Nat) : Nat → Bytes → List Val
  | 0, _ => []
  | n + 1, bs => decodeUnit code (bs.take (fmtSize code)) ++ decodeUnits code n (bs.drop (fmtSize code))

/-! ## Rounding (11 R271) -/

/-- mag·2^s rounded to an integer under RND: 0 ties to even, 1 toward zero, 2 ties away. -/
def roundScaled (rnd : Nat) (mag : Nat) (s : Int) : Nat :=
  if s ≥ 0 then mag * 2 ^ s.toNat
  else
    let d := 2 ^ (-s).toNat
    let q := mag / d
    let r := mag % d
    if rnd == 1 then q
    else if 2 * r > d then q + 1
    else if 2 * r == d then (if rnd == 2 || q % 2 == 1 then q + 1 else q)
    else q

/-- The largest finite magnitude: significand and exponent. -/
def FloatFmt.maxFinite (f : FloatFmt) : Nat × Int :=
  let top : Nat := if f.hasInf then 2 ^ f.eb - 2 else 2 ^ f.eb - 1
  let m : Nat := if f.oneNan then 2 ^ (f.mb + 1) - 2 else 2 ^ (f.mb + 1) - 1
  (m, (top : Int) - f.bias - f.mb)

/-- Compare m·2^e with m'·2^e'. -/
def magLt (m : Nat) (e : Int) (m' : Nat) (e' : Int) : Bool :=
  let b := min e e'
  decide (m * 2 ^ (e - b).toNat < m' * 2 ^ (e' - b).toNat)

/-- The significand and its exponent after rounding into the format's precision. -/
def FloatFmt.roundMag (f : FloatFmt) (rnd : Nat) (mag : Nat) (e : Int) : Nat × Int :=
  let q := max ((mag.log2 : Int) + e - f.mb) (1 - (f.bias : Int) - f.mb)
  (roundScaled rnd mag (e - q), q)

/-- The bits of ±n·2^q, n at most 2^(mb + 1) and in range. -/
def FloatFmt.pack (f : FloatFmt) (neg : Bool) (n : Nat) (q : Int) : Nat :=
  let s := b2n neg * 2 ^ (f.mb + f.eb)
  if n < 2 ^ f.mb then s + n
  else
    let (n, q) := if n == 2 ^ (f.mb + 1) then (n / 2, q + 1) else (n, q)
    s + (q + f.bias + f.mb).toNat * 2 ^ f.mb + (n - 2 ^ f.mb)

/-- The bits of an infinity and of the canonical NaN (11 R262). -/
def FloatFmt.infBits (f : FloatFmt) (neg : Bool) : Nat :=
  b2n neg * 2 ^ (f.mb + f.eb) + (2 ^ f.eb - 1) * 2 ^ f.mb
def FloatFmt.nanBits (f : FloatFmt) : Nat :=
  if f.oneNan then 2 ^ (f.mb + f.eb) - 1 else (2 ^ f.eb - 1) * 2 ^ f.mb + 2 ^ (f.mb - 1)
def FloatFmt.maxBits (f : FloatFmt) (neg : Bool) : Nat :=
  let (m, e) := f.maxFinite
  f.pack neg m e

/-- A value as bits of a floating-point format (11 R272). -/
def FloatFmt.encode (f : FloatFmt) (rnd : Nat) (sat : Bool) (v : Val) : Nat :=
  match v with
  | .nan => f.nanBits
  | .inf s => if f.hasInf then f.infBits s else if sat then f.maxBits s else f.nanBits
  | .fin s mag e =>
    if mag == 0 then f.pack s 0 0
    else
      let (n, q) := f.roundMag rnd mag e
      let (mm, me) := f.maxFinite
      if magLt mm me n q then
        if sat then f.maxBits s
        else if f.hasInf then (if rnd == 1 then f.maxBits s else f.infBits s)
        else f.nanBits
      else f.pack s n q

/-- A value as a clamped integer of w bits (11 R272). -/
def encodeInt (w : Nat) (rnd : Nat) (v : Val) : Nat :=
  let hi : Int := 2 ^ (w - 1) - 1
  let lo : Int := -(2 ^ (w - 1))
  let i : Int := match v with
    | .nan => 0
    | .inf s => if s then lo else hi
    | .fin s mag e =>
      let n := roundScaled rnd mag e
      max lo (min hi (if s then -(n : Int) else n))
  (i % 2 ^ w).toNat

/-! ## Block destinations (11 R273) -/

/-- floor(log2) of the largest magnitude of the finite elements, none where all are 0. -/
def amaxLog (vs : List Val) : Option Int :=
  vs.foldl (fun a v => match v with
    | .fin _ m e => if m == 0 then a else
        let l : Int := (m.log2 : Int) + e
        match a with
        | some k => some (max k l)
        | none => some l
    | _ => a) none

/-- An element of a float block, clamped to its range. -/
def FloatFmt.encodeElem (f : FloatFmt) (rnd : Nat) (v : Val) : Nat :=
  match v with
  | .fin s mag e =>
    if mag == 0 then f.pack s 0 0
    else
      let (n, q) := f.roundMag rnd mag e
      let (mm, me) := f.maxFinite
      if magLt mm me n q then f.maxBits s else f.pack s n q
  | _ => 0

/-- An integer element clamped to ±limit. -/
def encodeSig (w limit : Nat) (rnd : Nat) (v : Val) : Nat :=
  match v with
  | .fin s mag e =>
    let n : Int := min limit (roundScaled rnd mag e)
    ((if s then -n else n) % 2 ^ w).toNat
  | _ => 0

/-- 32 element codes of w bits as bytes. -/
def packElems (w : Nat) (es : List Nat) : Nat :=
  (es.zip (List.range es.length)).foldl (fun a e => a + e.1 * 2 ^ (w * e.2)) 0

/-- A block of 32 values (11 R273). -/
def encodeBlock (code : Nat) (rnd : Nat) (vs : List Val) : Bytes :=
  let size := fmtSize code
  let bad := vs.any fun v => match v with | .fin .. => false | _ => true
  if bad then 0xFF :: List.replicate (size - 1) 0
  else
    let (emax, base) : Int × Int := match code with
      | 6 => (8, 127) | 7 => (4, 127) | 8 => (2, 127) | 9 => (2, 127) | 10 => (0, 127) | _ => (0, 127)
    match amaxLog vs with
    | none =>
      let es := vs.map fun v => match code, v with
        | 6, .fin true _ _ => 0x80
        | _, _ => 0
      0 :: toBytesLE (packElems 8 es) (size - 1)
    | some e =>
      let x : Nat := (max 0 (min 254 (e - emax + base))).toNat
      let es : List Nat :=
        if code == 15 then vs.map fun v => encodeSig 12 2047 rnd (v.scale (137 - (x : Int)))
        else if code == 10 then vs.map fun v => encodeSig 8 127 rnd (v.scale (133 - (x : Int)))
        else match mxElemFmt code with
          | some f => vs.map fun v => f.encodeElem rnd (v.scale (127 - (x : Int)))
          | none => []
      let w := (size - 1) / 4
      BitVec.ofNat 8 x :: toBytesLE (packElems w es) (size - 1)

/-- Values written in a format: each element, or one block of 32. -/
def encodeUnit (code rnd : Nat) (sat : Bool) (vs : List Val) : Bytes :=
  if isBlockFmt code then encodeBlock code rnd vs
  else
    let v := vs.headD .nan
    if isIntFmt code then toBytesLE (encodeInt (8 * fmtSize code) rnd v) (fmtSize code)
    else match floatFmt code with
      | some f => toBytesLE (f.encode rnd sat v) (fmtSize code)
      | none => []

/-- Write n units. DEDUCED (log entry 102). -/
def encodeUnits (code rnd : Nat) (sat : Bool) : Nat → List Val → Bytes
  | 0, _ => []
  | n + 1, vs => encodeUnit code rnd sat (vs.take (fmtElems code)) ++
      encodeUnits code rnd sat n (vs.drop (fmtElems code))

/-- The pairs that MOVEX converts (11 R270). -/
def convertible (src dst : Nat) : Bool :=
  src != dst &&
  ((src ≤ 5 && dst ≤ 5) || (src ≤ 3 && isBlockFmt dst) || (isBlockFmt src && dst ≤ 3)
    || (src ≤ 3 && isIntFmt dst) || (isIntFmt src && (dst ≤ 3 || isIntFmt dst)))

/-- Bytes of whole source units converted to the destination format (11 R270-R274). DEDUCED (log entry 102). -/
def convertBytes (src dst rnd : Nat) (sat : Bool) (bs : Bytes) : Bytes :=
  let vs := decodeUnits src (bs.length / fmtSize src) bs
  encodeUnits dst rnd sat (vs.length / fmtElems dst) vs

end Sys2Proof.Machine
end

