-- ==== Sys2Proof/Machine/Operands.lean ====
section
/-! DEFINITION. Ops, their operand fields and decode checks; tensor descriptors; how a tile is cut
into runs (07 R154-R159, R166-R169; 08 R183, R448). -/

namespace Sys2Proof.Machine

/-- A 128-bit op. -/
abbrev Op := BitVec 128

/-! ## The header of an op (07 R154) -/

def opcOf (o : Op) : Nat := fld o 127 122
def opChan (o : Op) : Nat := fld o 121 118
def opCrst (o : Op) : Bool := bit o 117
def opCnt (o : Op) : Nat := fld o 115 108
def opCinc (o : Op) : Nat := fld o 107 100

/-! ## Opcodes (07 R156, R157) -/

def ocNop : Nat := 0x00
def ocLdd : Nat := 0x01
def ocMove : Nat := 0x02
def ocMovex : Nat := 0x03
def ocMcast : Nat := 0x04
def ocReduce : Nat := 0x05
def ocTree : Nat := 0x06
def ocSignal : Nat := 0x07
def ocWait : Nat := 0x08
def ocFence : Nat := 0x09
def ocAbort : Nat := 0x0A
def ocStamp : Nat := 0x0B
def ocProbe : Nat := 0x0C
def ocStage : Nat := 0x20
def ocCheck : Nat := 0x21
def ocTurn : Nat := 0x22
def ocDrain : Nat := 0x23
def ocFencep : Nat := 0x24
def ocSnap : Nat := 0x25
def ocSpare : Nat := 0x26
def ocPower : Nat := 0x27

/-- Where an op comes from (07 R158). -/
inductive OpSource where
  | fip | prog | fmu
  deriving DecidableEq, Repr

/-- The ops that each source accepts (07 R158). -/
def accepted (src : OpSource) (oc : Nat) : Bool :=
  match src with
  | .fip => oc ≤ 0x0C
  | .prog => oc ≤ 0x0C && oc != ocAbort
  | .fmu => oc == ocNop || oc == ocSignal || oc == ocWait || oc == ocFence || (0x20 ≤ oc && oc ≤ 0x27)

/-- The operand bits an opcode uses, as [hi:lo] fields (07 R156, R157). -/
def opFields (oc : Nat) : List (Nat × Nat) :=
  match oc with
  | 0x01 => [(95, 88), (79, 64), (31, 0)]
  | 0x02 => [(95, 60), (59, 36)]
  | 0x03 => [(95, 60), (59, 33)]
  | 0x04 => [(95, 90), (83, 0)]
  | 0x05 => [(95, 38), (31, 0)]
  | 0x06 => [(95, 82), (31, 0)]
  | 0x07 => [(95, 66), (63, 56), (47, 0)]
  | 0x08 => [(95, 87), (79, 64), (47, 0)]
  | 0x0A => [(95, 92)]
  | 0x0B => [(31, 0)]
  | 0x0C => [(95, 80), (31, 0)]
  | 0x20 => [(95, 80), (63, 0)]
  | 0x22 => [(39, 0)]
  | 0x23 => [(95, 95), (79, 64)]
  | 0x24 => [(95, 93), (89, 74)]
  | 0x25 => [(95, 95), (59, 0)]
  | 0x26 => [(95, 82)]
  | 0x27 => [(95, 95), (89, 80)]
  | _ => []

/-- Bits [hi:lo] as a mask. -/
def fieldMask (hl : Nat × Nat) : Nat := 2 ^ (hl.1 + 1) - 2 ^ hl.2

/-- The bits of `SPEC` that a kind of `SPARE` uses (17 R372); the reserved kinds list none, and complete
`MALFORMED` whatever `SPEC` holds. -/
def specBits (o : Op) : Nat :=
  if opcOf o != ocSpare then 0
  else match fld o 95 92 with
  | 0 => 0x3FFFF | 1 => 0xF | 2 => 0xFF | 3 => 0x7 | 4 => 0x1 | 5 => 0xF | 6 => 0x1
  | _ => 0xFFFFFFFF

/-- The bits an op may set (07 R154-R157; 17 R372). -/
def opMask (o : Op) : Op :=
  BitVec.ofNat 128 (fieldMask (127, 117) + fieldMask (115, 100) + ((opFields (opcOf o)).map fieldMask).sum + specBits o)

/-- A reserved bit is set (07 R155). -/
def reservedSet (o : Op) : Bool := (o &&& ~~~ opMask o) != 0

/-! ## STAGE targets (07 R157; 20 R438, R439) -/

def stScope (o : Op) : Nat := fld o 95 94
def stKind (o : Op) : Nat := fld o 93 90
def stUnit (o : Op) : Nat := fld o 89 80
def stOffset (o : Op) : Nat := fld o 63 32
def stData (o : Op) : Word := o.extractLsb' 0 32

/-- Table number and index of a `STAGE` offset, none where it names a register (20 R439). -/
def stTable (off : Nat) : Option (Nat × Nat) :=
  if off / 2 ^ 31 == 1 then some (off / 2 ^ 25 % 64, off % 2 ^ 24) else none

/-- A `STAGE` that addresses state the variant lacks (07 R159 step 2). -/
def stageAbsent (v : Variant) (o : Op) : Bool :=
  let k := stKind o
  let off := stOffset o
  let u := stUnit o
  let far := (k == 9 && ((stScope o == 0 && u ≥ nStops v) || (stScope o == 1 && u / 64 % 4 ≥ nDies v))) ||
    (1 ≤ k && k ≤ 8 && ((stScope o == 0 && u ≥ nPorts v) || (stScope o == 1 && u / 256 ≥ nDies v)))
  far || match stTable off with
  | some (t, _) =>
    !hasRdu v && ((k == 9 && (t == 1 || t == 2)) || (1 ≤ k && k ≤ 8 && t == 3))
  | none =>
    (!hasRdu v && 1 ≤ k && k ≤ 8 && 0x340 ≤ off && off ≤ 0x34F) ||
    (!hasTrace v && 1 ≤ k && k ≤ 8 && 0x1300 ≤ off && off ≤ 0x13FF)

/-! ## Decode (07 R159) -/

/-- The reserved codes, ranges and alignments of step 3. -/
def operandBad (src : OpSource) (o : Op) : Bool :=
  let oc := opcOf o
  let f := src == .fmu
  let laddr := fld o 31 0
  (f && opCnt o > 63) ||
  (oc == ocLdd &&
    ((fld o 89 88 ≥ 2) || (fld o 89 88 == 1 && (fld o 79 64 == 0 || laddr % 16 != 0 || fld o 95 90 != 0))
      || (fld o 89 88 == 0 && (fld o 79 64 != 0 || laddr % 64 != 0)))) ||
  (oc == ocMovex && fld o 35 34 == 3) ||
  (oc == ocReduce && laddr % 32 != 0) ||
  (oc == ocTree && (fld o 95 94 == 3 || laddr % 64 != 0)) ||
  (oc == ocSignal && (fld o 95 94 == 2 || (f && fld o 63 56 > 63))) ||
  (oc == ocWait && f && fld o 95 88 > 63) ||
  (oc == ocStamp && laddr % 16 != 0) ||
  (oc == ocProbe && (laddr % 64 != 0 || fld o 95 88 > 2 || (fld o 95 88 == 0 && fld o 87 80 != 0)
    || (fld o 95 88 == 1 && fld o 87 80 > 15))) ||
  (oc == ocStage && stScope o == 3) ||
  (oc == ocFencep && fld o 95 94 ≥ 2)

/-- The decode status of an op (07 R159). DEDUCED (log entry 21). -/
def decodeOp (v : Variant) (src : OpSource) (o : Op) : Status :=
  let oc := opcOf o
  if !accepted src oc then .malformed
  else if !hasRdu v && (oc == ocReduce || oc == ocTree) then .absentUnit
  else if oc == ocStage && stageAbsent v o then .absentUnit
  else if reservedSet o || operandBad src o then .malformed
  else .ok

/-! ## Tensor descriptors (07 R166, R168) -/

/-- Word i of a descriptor. -/
def dWord (d : BitVec 512) (i : Nat) : BitVec 64 := d.extractLsb' (64 * i) 64

def dBase (d : BitVec 512) : Nat := fld (dWord d 0) 56 0
def dFmt (d : BitVec 512) : Nat := fld (dWord d 1) 63 60
def dSpace (d : BitVec 512) : Nat := fld (dWord d 1) 59 58
def dDmode (d : BitVec 512) : Nat := fld (dWord d 1) 57 56
def dDest (d : BitVec 512) : Nat := fld (dWord d 1) 55 28
def dDim (d : BitVec 512) (i : Nat) : Nat := fld (dWord d (2 + i / 2)) (31 + 32 * (i % 2)) (32 * (i % 2))
def dTile (d : BitVec 512) (i : Nat) : Nat :=
  if i < 3 then fld (dWord d (4 + i)) 63 48 else fld (dWord d 7) 15 0
/-- Stride of dimension i, 1-3. -/
def dStride (d : BitVec 512) (i : Nat) : Nat := fld (dWord d (3 + i)) 47 0

/-- The checks of `LDD` (07 R168). Every format code is defined. -/
def descOk (d : BitVec 512) : Bool :=
  let sp := dSpace d
  sp != 3 && (sp != 2 || dDmode d < 2) &&
  (sp == 2 || (dDmode d == 0 && dDest d == 0)) &&
  (List.range 4).all (fun i => dDim d i ≥ 1 && dTile d i ≥ 1) &&
  (!isBlockFmt (dFmt d) || (dDim d 0 % 32 == 0 && dTile d 0 % 32 == 0)) &&
  fld (dWord d 0) 63 57 == 0 && fld (dWord d 1) 27 0 == 0 && fld (dWord d 7) 63 16 == 0

/-! ## Tiles (07 R167) -/

/-- Tiles of the grid in dimension i. -/
def gridN (d : BitVec 512) (i : Nat) : Nat := ceilDiv (dDim d i) (dTile d i)

/-- The tile number lies within its grid. -/
def tileIn (d : BitVec 512) (t : Nat) : Bool :=
  t < gridN d 0 * gridN d 1 * gridN d 2 * gridN d 3

/-- Coordinate i of a tile. -/
def tileCoord (d : BitVec 512) (t i : Nat) : Nat :=
  let n0 := gridN d 0
  let n1 := gridN d 1
  let n2 := gridN d 2
  match i with
  | 0 => t % n0
  | 1 => t / n0 % n1
  | 2 => t / (n0 * n1) % n2
  | _ => t / (n0 * n1 * n2)

/-- First index and clipped extent of a tile in dimension i. -/
def tileStart (d : BitVec 512) (t i : Nat) : Nat := tileCoord d t i * dTile d i
def tileExt (d : BitVec 512) (t i : Nat) : Nat :=
  min ((tileCoord d t i + 1) * dTile d i) (dDim d i) - tileStart d t i

/-- The rows of a tile: the address of each row's first unit, in row-major order. -/
def tileRows (d : BitVec 512) (t : Nat) : List Nat :=
  let f := dFmt d
  let a0 := dBase d + tileStart d t 0 / fmtElems f * fmtSize f
  let s (i : Nat) := tileStart d t i
  (List.range (tileExt d t 3)).flatMap fun j3 =>
    (List.range (tileExt d t 2)).flatMap fun j2 =>
      (List.range (tileExt d t 1)).map fun j1 =>
        a0 + (s 1 + j1) * dStride d 1 + (s 2 + j2) * dStride d 2 + (s 3 + j3) * dStride d 3

/-- Bytes of one row of a tile. -/
def rowBytes (d : BitVec 512) (t : Nat) : Nat := tileExt d t 0 / fmtElems (dFmt d) * fmtSize (dFmt d)

/-! ## Runs (08 R183, R185, R448) -/

/-- A stretch that is contiguous on both sides: remote and local address, bytes of each. -/
structure Seg where
  ra : Nat
  la : Nat
  rb : Nat
  lb : Nat
  deriving DecidableEq, Repr

/-- Consecutive rows joined where both sides go on without a gap. -/
def joinSegs (l : List Seg) : List Seg :=
  l.foldr (fun x acc => match acc with
    | y :: ys => if x.ra + x.rb == y.ra && x.la + x.lb == y.la
        then ⟨x.ra, x.la, x.rb + y.rb, x.lb + y.lb⟩ :: ys else x :: y :: ys
    | [] => [x]) []

/-- One stretch cut at 4 KiB boundaries of its remote side. `ur` and `ul` are the bytes of a
conversion unit on each side; `off` is how far the cut has come. -/
def cutSeg (ur ul : Nat) (g : Seg) : Nat → Nat → List Run
  | 0, _ => []
  | fuel + 1, off =>
    if off ≥ g.rb then []
    else
      let a := g.ra + off
      let n := min (4096 - a % 4096) (g.rb - off)
      { addr := BitVec.ofNat 64 a, local_ := g.la + ceilDiv off ur * ul, bytes := n
        skip := min n ((ur - off % ur) % ur) } :: cutSeg ur ul g fuel (off + n)

def cutSegs (ur ul : Nat) (gs : List Seg) : List Run :=
  gs.flatMap fun g => cutSeg ur ul g (g.rb / 4096 + 2) 0

/-- The stretches of two tiles of equal extents. -/
def pairSegs (rem loc : BitVec 512) (rt lt : Nat) : List Seg :=
  joinSegs (((tileRows rem rt).zip (tileRows loc lt)).map fun e =>
    ⟨e.1, e.2, rowBytes rem rt, rowBytes loc lt⟩)

/-- Bytes of a conversion unit of two formats: a block where either is a block format, else an
element. -/
def unitBytes (a b : Nat) : Nat :=
  if isBlockFmt a || isBlockFmt b then 32 / fmtElems a * fmtSize a else fmtSize a

/-- The runs of a MOVE or MOVEX between a remote and a local tile. A MOVE maps byte for byte. -/
def runsOf (rem loc : BitVec 512) (rt lt : Nat) (convert : Bool) : List Run :=
  if convert then
    cutSegs (unitBytes (dFmt rem) (dFmt loc)) (unitBytes (dFmt loc) (dFmt rem)) (pairSegs rem loc rt lt)
  else cutSegs 1 1 (pairSegs rem loc rt lt)

/-- The distinct 2 MiB pages that a run touches: one, since it lies in one 4 KiB block. -/
def pageOf (a : BitVec 64) : BitVec 36 := a.extractLsb' 21 36

/-- Runs numbered by pre-translation window: at most 64 distinct pages each (08 R190). -/
def numberWindows : Nat → List (BitVec 36) → List Run → List Run
  | _, _, [] => []
  | w, ps, r :: rs =>
    let p := pageOf r.addr
    if ps.contains p then { r with win := w } :: numberWindows w ps rs
    else if ps.length < 64 then { r with win := w } :: numberWindows w (ps ++ [p]) rs
    else { r with win := w + 1 } :: numberWindows (w + 1) [p] rs

/-- The windows of numbered runs, each with its pages in cutting order. -/
def windowsOf (rs : List Run) : List XWin :=
  (List.range ((rs.getLast?.map (·.win + 1)).getD 0)).map fun w =>
    { pages := ((rs.filter fun r => r.win == w).map fun r => pageOf r.addr).eraseDups }

end Sys2Proof.Machine
end

