-- ==== Sys2Proof/Machine/Sequencer.lean ====
section
/-! DEFINITION. Channels: starting, completing and aborting ops; completion counters; injection
queues (07 R160-R165, R170-R172, R176, R447; 18 R404). -/

namespace Sys2Proof.Machine

/-! ## Channels and counters of a sequencer -/

/-- The channel of a sequencer; the FMU's is one. -/
def seqChan : Seqr → Nat
  | .tsq _ c => c
  | .fmu => 0

def Fabric.chan (f : Fabric) : Seqr → Chan
  | .tsq p c => (f.ni p).tsq.chans.get c {}
  | .fmu => f.fmu.chan
def Fabric.setChan (f : Fabric) (w : Seqr) (c : Chan) : Fabric :=
  match w with
  | .tsq p n => f.updNi p fun x => { x with tsq := { x.tsq with chans := x.tsq.chans.put n c } }
  | .fmu => f.updFmu fun m => { m with chan := c }
def Fabric.updChan (f : Fabric) (w : Seqr) (g : Chan → Chan) : Fabric := f.setChan w (g (f.chan w))

def Fabric.ctr (f : Fabric) (w : Seqr) (n : Nat) : Counter :=
  match w with
  | .tsq p _ => (f.ni p).tsq.ctrs.get n {}
  | .fmu => f.fmu.ctrs.get n {}
def Fabric.updCtr (f : Fabric) (w : Seqr) (n : Nat) (g : Counter → Counter) : Fabric :=
  match w with
  | .tsq p _ => f.updNi p fun x => { x with tsq := { x.tsq with ctrs := x.tsq.ctrs.upd n {} fun c => g (c.now f.time.fcc) } }
  | .fmu => f.updFmu fun m => { m with ctrs := m.ctrs.upd n {} fun c => g (c.now f.time.fcc) }

/-- `INFO` of a `MALFORMED` completion (07 R171; 15 R349). -/
def infoMal (op : Op) (code reason : Nat) : BitVec 48 :=
  BitVec.ofNat 48 (opcOf op + code * 256 + reason * 65536)

/-- `INFO` that names a port and a SEQ (07 R171). -/
def infoPort (port : Nat) (seq : BitVec 16) : BitVec 48 := BitVec.ofNat 48 (port + seq.toNat * 2 ^ 32)

/-- Error count e of an NI increments (19 R406). -/
def Fabric.niErr (f : Fabric) (p e : Nat) : Fabric :=
  f.updNi p fun n => { n with obs := { n.obs with err := n.obs.err.upd e 0 (· + 1) } }

/-! ## Which op may start (07 R162) -/

/-- The unit of a sequencer can act: a powered Core NI after crawl service has opened, or the FMU. -/
def Fabric.seqLive (f : Fabric) : Seqr → Bool
  | .tsq p c => f.moving && f.fmu.prog.open_ && f.kind p == 1 && c < 16 && f.powered p
  | .fmu => f.live && f.fmu.prog.open_

/-- The not-yet-started op at the head. The FMU's waits in its FIFO. -/
def Fabric.head (f : Fabric) (w : Seqr) : Option QEntry :=
  match w with
  | .tsq .. => (f.chan w).queue.find? fun e => !e.started
  | .fmu => match f.fmu.prog.fifo with
    | o :: _ => some { eid := f.fmu.nextEid, op := o }
    | [] => none

/-- No rule of R162 holds the head back, nor a quiescing turn (18 R399). An op starts in a later fc than
the one in which the op before it completed or was issued. DEDUCED (log entry 181). -/
def Fabric.canStart (f : Fabric) (w : Seqr) : Bool :=
  let c := f.chan w
  let quiet := match w with
    | .tsq p _ => (f.ni p).pwr.quiesce
    | .fmu => f.fmu.turn.sealed_ && f.fmu.turn.quiescing
  !c.halted && c.aborts.isEmpty && !quiet && c.passedAt != some f.time.fcc && c.queue.all fun e => !e.started || e.issued

/-- An op rejected at decode is recorded (07 R160; 18 R404). -/
def Chan.reject (c : Chan) (st : Status) (op : Op) : Chan :=
  { c with drejStat := BitVec.ofNat 4 (statusCode st), drejOp := BitVec.ofNat 6 (opcOf op)
           drejN := c.drejN + 1 }

/-- Ops of the FMU stream that decode rejects are passed over; the stream holds a finite FIFO. -/
def Fabric.fmuSkipN (f : Fabric) : Nat → Fabric
  | 0 => f
  | n + 1 =>
    match f.fmu.prog.fifo with
    | [] => f
    | o :: rest =>
      let st := decodeOp f.variant .fmu o
      if st = .ok then f
      else ((f.updFmu fun m => { m with prog := { m.prog with fifo := rest } }).updChan .fmu
        fun c => c.reject st o).fmuSkipN n
/-- DEDUCED (log entry 108). -/
def Fabric.fmuSkip (f : Fabric) : Fabric := f.fmuSkipN f.fmu.prog.fifo.length

/-- A program ends when every op it fetched has started or been rejected (07 R153). -/
def Chan.settleProg (c : Chan) : Chan :=
  match c.prog with
  | some (_, 0) => if c.progOps.isEmpty then { c with prog := none } else c
  | _ => c

/-- The head op starts: its domain is captured and its counter reset (07 R162, R163, R172). -/
def Fabric.begin (f : Fabric) (w : Seqr) (e : QEntry) : Fabric :=
  let dom : BitVec 6 := match w with
    | .tsq p c => BitVec.ofNat 6 (fld (f.niReg p (0x400 + 16 * c)) 5 0)
    | .fmu => 0
  let e1 : QEntry := { e with started := true, work := { e.work with dom := dom, startAt := f.time.fcc } }
  let f1 := match w with
    | .tsq .. => f.updChan w fun (c : Chan) => ({ c with
        queue := c.queue.map fun (x : QEntry) => if x.eid == e.eid then e1 else x
        progOps := c.progOps.filter (· != e.eid), started := c.started + 1 } : Chan).settleProg
    | .fmu => (f.updFmu fun m => { m with
        prog := { m.prog with fifo := m.prog.fifo.drop 1 }, nextEid := m.nextEid + 1 }).updChan .fmu
        fun c => { c with queue := c.queue ++ [e1], started := c.started + 1 }
  if opCrst e.op then f1.updCtr w (opCnt e.op) Counter.crst else f1

/-- If the head is an op of the opcode and may start, it starts and `k` goes on. DEDUCED (log entry 98). -/
def Fabric.startOp (f : Fabric) (w : Seqr) (oc : Nat) (k : Fabric → QEntry → Fabric) : Fabric :=
  f.when (f.seqLive w) fun f0 =>
    let f := if w = .fmu then f0.fmuSkip else f0
    match f.head w with
    | some e => if opcOf e.op == oc && f.canStart w then k (f.begin w e) e else f
    | none => f

/-! ## Changing an entry -/

def Fabric.entry (f : Fabric) (w : Seqr) (eid : Nat) : Option QEntry :=
  (f.chan w).queue.find? fun e => e.eid == eid
def Fabric.updEntry (f : Fabric) (w : Seqr) (eid : Nat) (g : QEntry → QEntry) : Fabric :=
  f.updChan w fun c => { c with queue := c.queue.map fun e => if e.eid == eid then g e else e }
def Fabric.updWork (f : Fabric) (w : Seqr) (eid : Nat) (g : Work → Work) : Fabric :=
  f.updEntry w eid fun e => { e with work := g e.work }

/-- The first started op of an opcode. -/
def Fabric.running (f : Fabric) (w : Seqr) (oc : Nat) : Option QEntry :=
  (f.chan w).queue.find? fun e => e.started && opcOf e.op == oc

/-! ## Completion (07 R170, R162, R176) -/

/-- The first non-OK status of an op stays; a later status of higher precedence replaces it. -/
def Work.note (w : Work) (st : Status) (info : BitVec 48) : Work :=
  if statusRank st < statusRank w.st then { w with st := st, info := info } else w

/-- The same, where packets or runs are numbered: of equal statuses the lowest number's information
stays (09 R222). -/
def Work.noteSeq (w : Work) (st : Status) (info : BitVec 48) (i : Nat) : Work :=
  if st ≠ .ok && (statusRank st < statusRank w.st || (st == w.st && i < w.infoSeq)) then
    { w with st := st, info := info, infoSeq := i }
  else w

/-- The last started op reaches the point of R162; after a NOP or a SIGNAL the next op starts in the same
fc, and the management ops have rules of their own (15 R332). DEDUCED (log entry 181). -/
def Fabric.passOn (f : Fabric) (w : Seqr) (op : Op) : Fabric :=
  if opcOf op == ocNop || opcOf op == ocSignal || 0x20 ≤ opcOf op then f
  else f.updChan w fun c => { c with passedAt := some f.time.fcc }

/-- An op leaves its queue and its counter advances. -/
def Fabric.retire (f : Fabric) (w : Seqr) (e : QEntry) (st : Status) (info : BitVec 48) : Fabric :=
  let f1 := (if e.issued then f else f.passOn w e.op).updChan w fun c => { c with
    queue := c.queue.filter fun x => x.eid != e.eid, progOps := c.progOps.filter (· != e.eid) }
  let f2 := f1.updCtr w (opCnt e.op) fun c => c.complete (seqChan w) (opCinc e.op) st info
  if w = .fmu then f2.updFmu fun m => { m with prog := { m.prog with done := m.prog.done + 1 } } else f2

/-- A waiting ABORT completes once no aborted op is left; a waiting FENCE once it is first. -/
def Fabric.settle (f : Fabric) (w : Seqr) : Fabric :=
  let c := f.chan w
  let f1 :=
    if c.queue.any (·.aborted) || c.aborts.isEmpty then f
    else c.aborts.foldl (fun f o => f.updCtr w (opCnt o) fun k => k.complete (seqChan w) (opCinc o) .ok 0)
      (f.updChan w fun c => { c with aborts := [] })
  match (f1.chan w).queue with
  | e :: _ => if e.started && opcOf e.op == ocFence && !e.aborted then
      (f1.updChan w fun c => { c with reason := if c.reason == 5 then 0 else c.reason }).retire w e .ok 0 else f1
  | [] => f1

/-- An op completes. An aborted op completes `ABORTED` with the bytes it committed (07 R176). -/
def Fabric.finish (f : Fabric) (w : Seqr) (eid : Nat) (st : Status) (info : BitVec 48) : Fabric :=
  match f.entry w eid with
  | none => f
  | some e =>
    (if e.aborted then f.retire w e .aborted (BitVec.ofNat 48 e.work.committed)
     else f.retire w e st info).settle w

/-- A data op completes once all its packets are injected or refused and answered. -/
def Fabric.finishIfDone (f : Fabric) (w : Seqr) (eid : Nat) : Fabric :=
  match f.entry w eid with
  | some e =>
    if e.started && e.work.outstanding == 0 && (e.issued || e.aborted) then f.finish w eid e.work.st e.work.info
    else f
  | none => f

/-- One packet of an op is answered, refused or timed out. -/
def Fabric.settled (f : Fabric) (w : Seqr) (eid : Nat) (st : Status) (info : BitVec 48) : Fabric :=
  (f.updWork w eid fun k => { k.note st info with outstanding := k.outstanding - 1 }).finishIfDone w eid

/-- The channel halts (07 R164). -/
def Fabric.halt (f : Fabric) (w : Seqr) : Fabric := f.updChan w fun c => { c with halted := true, reason := 8 }

/-- The op a packet belongs to: its channel and entry. -/
def Purpose.op : Purpose → Option (Nat × Nat)
  | .run c e _ => some (c, e)
  | .mcRun c e _ => some (c, e)
  | .mcRead c e _ => some (c, e)
  | .chunk c e _ => some (c, e)
  | .tree c e => some (c, e)
  | _ => none

/-! ## Injection queues (06 R132) -/

def Fabric.injQ (f : Fabric) (p q : Nat) : List OutPkt := (f.ni p).inj.queues.get q []
def Fabric.setInjQ (f : Fabric) (p q : Nat) (l : List OutPkt) : Fabric :=
  f.updNi p fun n => { n with inj := { n.inj with queues := n.inj.queues.put q l } }
def Fabric.enqueue (f : Fabric) (p q : Nat) (o : OutPkt) : Fabric :=
  f.setInjQ p q (f.injQ p q ++ [{ o with at_ := f.time.fcc }])

/-- The sequencer behind an NI's packets: the FMU's stream at its own port. -/
def seqOf (p chan : Nat) : Seqr := if p = fmuPort then .fmu else .tsq p chan

/-- An answer an NI has built goes to its answer queue (06 R132 step 3). -/
def Fabric.answer (f : Fabric) (p : Nat) (a : Packet) : Fabric := f.enqueue p 101 { pkt := a }
def Fabric.answer? (f : Fabric) (p : Nat) (a : Option Packet) : Fabric :=
  match a with
  | some x => f.answer p x
  | none => f

/-- The next tag of an NI, passing over tags in use and tags held after a timeout (03 R76; 08
R197; log entry 10). DEDUCED (log entry 93). -/
def nextTagFuel (used : List (BitVec 12)) : Nat → BitVec 12 → BitVec 12
  | 0, t => t
  | n + 1, t => if used.contains t then nextTagFuel used n (t + 1) else t
def Ni.usedTags (n : Ni) : List (BitVec 12) :=
  n.ini.ort.map (·.tag) ++ n.ini.heldTags.map (·.1) ++
    n.tsq.chans.flatMap fun c => c.2.queue.flatMap fun e => e.work.tags
/-- DEDUCED (log entries 93, 136). -/
def Fabric.takeTag (f : Fabric) (p : Nat) : BitVec 12 × Fabric :=
  let i := (f.ni p).ini
  let t := nextTagFuel (f.ni p).usedTags 4096 i.nextTag
  (t, f.updNi p fun n => { n with ini := { n.ini with nextTag := t + 1 } })

/-- The tags of a started op: one for each 65,536 packets (03 R76). -/
def Fabric.takeTags (f : Fabric) (p chan eid : Nat) : Nat → Fabric
  | 0 => f
  | k + 1 =>
    let (t, f1) := f.takeTag p
    (f1.updWork (.tsq p chan) eid fun w => { w with tags := w.tags ++ [t] }).takeTags p chan eid k

/-- The source address of a packet injected at a port (03 R65). -/
def Fabric.srcOf (f : Fabric) (p : Nat) : BitVec 28 := BitVec.ofNat 28 (f.node p * 1024 + p)
/-- The coordinate destination of a port of the same node. -/
def Fabric.destOf (f : Fabric) (p q : Nat) : BitVec 28 := BitVec.ofNat 28 (f.node p * 1024 + q)

/-- Bytes of core-local memory the fabric knows: those it has written; others read 0 here and come
with the command that reads them. DESIGN CHOICE (log entry 5). -/
def Fabric.lmWrite (f : Fabric) (p a : Nat) (bs : Bytes) : Fabric :=
  f.updNi p fun n => { n with core := { n.core with lm := n.core.lm.write a bs } }

end Sys2Proof.Machine
end

