-- ==== Sys2Proof/Machine/TsqOps.lean ====
section
/-! DEFINITION. The Fabric Issue Port, fabric programs and the ops a channel executes by itself
(07 R151-R153, R162, R168, R172-R179). -/

namespace Sys2Proof.Machine

/-! ## Issue and fetch -/

/-- `FIP_READY[c]` (07 R151; 18 R399). -/
def Fabric.fipReady (f : Fabric) (p c : Nat) : Bool :=
  let ch := f.chan (.tsq p c)
  f.moving && ch.queue.length < 64 && ch.prog.isNone && !(f.ni p).pwr.quiesce

/-- An op joins a channel's queue. -/
def Fabric.queueOp (f : Fabric) (p c : Nat) (op : Op) (fetched : Bool) : Fabric :=
  let eid := (f.ni p).tsq.nextEid
  (f.updNi p fun n => { n with tsq := { n.tsq with nextEid := eid + 1 } }).updChan (.tsq p c)
    fun k => { k with queue := k.queue ++ [{ eid := eid, op := op }]
                      progOps := if fetched then k.progOps ++ [eid] else k.progOps }

/-- An op rejected at decode is counted (19 R406); a management op raises `OP_PRIV` (07 R158; 16
R354). -/
def Fabric.opPriv (f : Fabric) (p c : Nat) (op : Op) : Fabric :=
  let f := f.niErr p 9
  if 0x20 ≤ opcOf op && opcOf op ≤ 0x27 then f.raiseNi p .opPriv (p + c * 2 ^ 10 + opcOf op * 2 ^ 14) else f

def Fabric.fipRsp (f : Fabric) (p : Nat) (r : FipRsp) : Fabric :=
  f.updNi p fun n => { n with tsq := { n.tsq with fip := r } }

/-- FIP_ISSUE (07 R151, R152, R159, R160). DEDUCED (log entry 95). -/
def execFipIssue (port : Nat) (op : BitVec 128) (s : State) : Host.Outcome State Fault Refusal :=
  s.run fun f => f.when (f.seqLive (.tsq port 0)) <|
    fun f =>
      let c := opChan op
      let abort := opcOf op == ocAbort
      if !abort && !f.fipReady port c then f.fipRsp port { (f.ni port).tsq.fip with accept := false }
      else
        let st := decodeOp f.variant .fip op
        let f1 := f.fipRsp port { (f.ni port).tsq.fip with accept := true, next := st }
        if st ≠ .ok then f1.opPriv port c op
        else if abort then f1.updNi port fun n =>
          { n with tsq := { n.tsq with pendingAborts := n.tsq.pendingAborts ++ [op] } }
        else f1.queueOp port c op false

/-- PROGRAM_FETCH (07 R153, R160): the op read at the program pointer. -/
def execProgramFetch (port chan : Nat) (op : BitVec 128) (s : State) : Host.Outcome State Fault Refusal :=
  s.run fun f => f.when (f.seqLive (.tsq port chan)) <|
    fun f =>
      let w : Seqr := .tsq port chan
      match (f.chan w).prog with
      | some (pc, n + 1) =>
        if (f.chan w).queue.length < 64 then
          let st := decodeOp f.variant .prog op
          let f1 := f.updChan w fun c => { c with prog := some (pc + 16, n) }
          if st = .ok then f1.queueOp port chan op true
          else (f1.opPriv port chan op).updChan w fun c => (c.reject st op).settleProg
        else f
      | _ => f

/-! ## Ops without packets -/

/-- NOP (07 R162): completes at its start. -/
def execNop (who : Seqr) (s : State) : Host.Outcome State Fault Refusal :=
  s.run fun f => f.startOp who ocNop fun f e => f.finish who e.eid .ok 0

/-- An LDD of a kind starts. -/
def Fabric.startLdd (f : Fabric) (w : Seqr) (kind : Nat) (k : Fabric → QEntry → Fabric) : Fabric :=
  match f.head w with
  | some e => if fld e.op 89 88 == kind then f.startOp w ocLdd k else f
  | none => f

/-- LDD_TENSOR (07 R162, R168): reading core-local memory begins. -/
def execLddTensor (port chan : Nat) (s : State) : Host.Outcome State Fault Refusal :=
  s.run fun f => f.startLdd (.tsq port chan) 0 fun f _ => f.updChan (.tsq port chan) fun c => { c with reason := 6 }

/-- A slot is written, or marked invalid, from the end of the present fc (R168). -/
def Fabric.writeSlot (f : Fabric) (p n : Nat) (d : Option (BitVec 512)) : Fabric :=
  f.updNi p fun x =>
    let old := match x.tsq.slotWas.find? n with
      | some (t, o) => if t = f.time.fcc then o else x.tsq.slots.find? n
      | none => x.tsq.slots.find? n
    { x with tsq := { x.tsq with
      slots := (match d with | some b => x.tsq.slots.put n b | none => x.tsq.slots.del n)
      slotWas := x.tsq.slotWas.put n (f.time.fcc, old) } }

/-- LDD_SLOT_WRITE (07 R168, R447): the 64 bytes have been read. -/
def execLddSlotWrite (port chan : Nat) (desc : BitVec 512) (s : State) : Host.Outcome State Fault Refusal :=
  s.run fun f => f.when (f.seqLive (.tsq port chan)) <|
    fun f =>
      let w : Seqr := .tsq port chan
      match f.running w ocLdd with
      | none => f
      | some e =>
        let f := f.updChan w fun c => { c with reason := if c.halted then 8 else 0 }
        let slot := fld e.op 95 90
        if e.aborted then f.finish w e.eid .aborted 0
        else if descOk desc then (f.writeSlot port slot (some desc)).finish w e.eid .ok 0
        else (f.writeSlot port slot none).finish w e.eid .malformed (infoMal e.op 0x02 0)

/-- LDD_PROGRAM (07 R153): the program pointer is set. -/
def execLddProgram (port chan : Nat) (s : State) : Host.Outcome State Fault Refusal :=
  s.run fun f => f.startLdd (.tsq port chan) 1 fun f e =>
    (f.updChan (.tsq port chan) fun c => { c with
      prog := some (e.op.extractLsb' 0 32, fld e.op 79 64), progOps := [] }).finish (.tsq port chan) e.eid .ok 0

/-- A FENCE that has started completes, or waits and says so (R162, R165). -/
def Fabric.fenceWaits (f : Fabric) (w : Seqr) (eid : Nat) : Fabric :=
  let f1 := f.settle w
  if (f1.entry w eid).isSome then f1.updChan w fun c => { c with reason := 5 } else f1

/-- FENCE (07 R162): completes at its start if nothing earlier is incomplete, else once the last
earlier op has completed. -/
def execFence (who : Seqr) (s : State) : Host.Outcome State Fault Refusal :=
  s.run fun f => f.startOp who ocFence fun f e => f.fenceWaits who e.eid

/-! ## SIGNAL (07 R173) -/

/-- The SIG packet of a SIGNAL. -/
def Fabric.sigPacket (f : Fabric) (p : Nat) (op : Op) (dom : BitVec 6) : Packet :=
  { hdr := { cls := 2, kind := 4, op := BitVec.ofNat 6 (opcOf op), domain := dom
             dmode := op.extractLsb' 94 2, dest := op.extractLsb' 66 28, src := f.srcOf p
             addr := BitVec.ofNat 48 (fld op 63 56) }
    aux := sigAux (op.extractLsb' 0 48) 1 }

/-- SIGNAL: a local add, or a SIG queued under the control credit of its NI. -/
def execSignal (who : Seqr) (s : State) : Host.Outcome State Fault Refusal :=
  s.run fun f => f.startOp who ocSignal fun f e =>
    if fld e.op 95 94 == 3 then
      (f.updCtr who (fld e.op 63 56) fun c => c.addTo (e.op.extractLsb' 0 48)).finish who e.eid .ok 0
    else
      let (p, chan) : Nat × Nat := match who with
        | .tsq p c => (p, c)
        | .fmu => (fmuPort, 0)
      let dom := match f.entry who e.eid with
        | some x => x.work.dom
        | none => 0
      f.enqueue p 102 { pkt := f.sigPacket p e.op dom, purpose := some (.run chan e.eid 0) }

/-! ## WAIT (07 R174) -/

/-- The condition of a WAIT. -/
def waitHolds (v : BitVec 48) (op : Op) : Bool := fld op 47 0 ≤ v.toNat
/-- What a comparison of counter n in the present fc sees. -/
def Fabric.compared (f : Fabric) (w : Seqr) (n : Nat) : BitVec 48 := (f.ctr w n).compared f.time.fcc

/-- A waiting WAIT compares. -/
def Fabric.compareWait (f : Fabric) (w : Seqr) : Fabric :=
  match f.running w ocWait with
  | some e => if !e.aborted && waitHolds (f.compared w (fld e.op 95 88)) e.op
      then (f.updChan w fun c => { c with reason := if c.halted then 8 else 0 }).finish w e.eid .ok 0 else f
  | none => f

/-- WAIT: the WAIT at the head starts and compares, before its own reset if it names its own
counter (R172); one that waits compares again. -/
def execWait (who : Seqr) (s : State) : Host.Outcome State Fault Refusal :=
  s.run fun f => f.when (f.seqLive who) <|
    fun f =>
      match f.running who ocWait with
      | some _ => f.compareWait who
      | none =>
        f.startOp who ocWait fun g e =>
          if waitHolds (f.compared who (fld e.op 95 88)) e.op then g.finish who e.eid .ok 0
          else g.updChan who fun c => { c with reason := 4 }

/-- WAIT_TIMEOUT: `TMO`·1,024 fc have passed (R174). -/
def execWaitTimeout (who : Seqr) (s : State) : Host.Outcome State Fault Refusal :=
  s.run fun f => f.when (f.seqLive who) <|
    fun f =>
      match f.running who ocWait with
      | none => f
      | some e =>
        let tmo := fld e.op 79 64
        let t := e.work.startAt + tmo * 1024 * f.unit
        if tmo == 0 || e.aborted || !f.due t then f
        else
          let f1 := f.reach t
          let f2 := f1.updChan who fun c => { c with reason := if c.halted then 8 else 0 }
          if waitHolds (f1.compared who (fld e.op 95 88)) e.op then f2.finish who e.eid .ok 0
          else
            let f3 := f2.finish who e.eid .timeout 0
            if bit e.op 87 then f3.halt who else f3

/-! ## ABORT (07 R176, R447) -/

/-- The packet belongs to an op of the channel. -/
def OutPkt.ofChan (chan : Nat) (o : OutPkt) : Bool :=
  match o.purpose with
  | some u => (u.op.map (·.1)) == some chan
  | none => false

/-- What an aborted op still waits for: a tensor LDD its read, a TREE its answer, a data op its
packets in flight (R447). -/
def QEntry.holds (e : QEntry) : Bool :=
  e.started && ((opcOf e.op == ocLdd && fld e.op 89 88 == 0) || e.work.outstanding > 0)

/-- The entry of a multicast run after a copy of it has been withdrawn: the copy brings no answers. -/
def OrtEntry.withdrawn (x : OrtEntry) (o : OutPkt) : OrtEntry :=
  let h := o.pkt.hdr
  if x.red || x.req.kind != 5 || x.tag != h.tag || x.seq != h.seq then x
  else if o.resolved then { x with
    local_ := x.local_ - 1, need := x.need - popcountN 256 o.pkt.aux.toNat * popcountN 4 h.pmask.toNat }
  else { x with local_ := x.local_ - 1, fwdNeed := x.fwdNeed - 1 }

/-- A multicast entry that waits for nothing: no copy of it was sent, or all that were are answered. -/
def OrtEntry.over (x : OrtEntry) : Bool :=
  x.req.kind == 5 && !x.red && x.local_ == 0 && (x.limit == 0 || (x.nack ≥ x.need && x.fwdNeed == 0))

/-- The packets of a channel that are not yet injected are withdrawn, from every queue. What a data
op or a TREE then still waits for are its entries in the Outstanding Request Table. -/
def Fabric.withdrawPackets (f : Fabric) (p chan : Nat) : Fabric :=
  f.updNi p fun n =>
    let copies := (n.inj.queues.flatMap fun q => q.2).filter fun o => o.ofChan chan
    let cut := n.ini.ort.map fun x => copies.foldl OrtEntry.withdrawn x
    let mine (x : OrtEntry) : Bool := x.purpose.op.map (·.1) == some chan && x.over
    let ort := cut.filter fun x => !mine x
    let inFlight (eid : Nat) : Nat := (ort.filter fun o => o.purpose.op == some (chan, eid)).length
    let answered (e : QEntry) : Bool :=
      let oc := opcOf e.op
      oc == ocMove || oc == ocMovex || oc == ocMcast || oc == ocReduce || oc == ocTree
    let c := n.tsq.chans.get chan {}
    let fix (x : QEntry) : QEntry :=
      if answered x then { x with work := { x.work with outstanding := inFlight x.eid } } else x
    { n with
      inj := { n.inj with queues := n.inj.queues.mapAll fun _ l => l.filter fun o => !o.ofChan chan }
      ini := { n.ini with
        walkQ := n.ini.walkQ.filter fun x => x.1 != chan, ort := ort
        pool := n.ini.pool - ((cut.filter mine).map (·.pool)).sum }
      tsq := { n.tsq with chans := n.tsq.chans.put chan { c with queue := c.queue.map fix } } }

/-- ABORT: the oldest ABORT taken at the port is acted on. -/
def execAbort (port : Nat) (s : State) : Host.Outcome State Fault Refusal :=
  s.run fun f => f.when (f.seqLive (.tsq port 0)) <|
    fun f =>
      match (f.ni port).tsq.pendingAborts with
      | [] => f
      | op :: rest =>
        let a := fld op 95 92
        let w : Seqr := .tsq port a
        let f0 := f.updNi port fun n => { n with tsq := { n.tsq with pendingAborts := rest } }
        let q := (f0.chan w).queue
        let f1 := f0.updChan w fun c => { c with prog := none, progOps := [], halted := false, reason := 0 }
        if q.isEmpty then f1.updCtr w (opCnt op) fun k =>
          (if opCrst op then k.crst else k).complete a (opCinc op) .abortLate 0
        else
          let f2 := if opCrst op then f1.updCtr w (opCnt op) Counter.crst else f1
          let f3 := f2.withdrawPackets port a
          let f4 := f3.updChan w fun c => { c with
            queue := c.queue.map fun e => { e with aborted := true }, aborts := c.aborts ++ [op] }
          -- a local SIGNAL has made its add at its start; every op that holds nothing ends now
          ((f4.chan w).queue.filter fun e => !e.holds).foldl (fun f e => f.finish w e.eid .aborted 0) f4

/-! ## STAMP and PROBE (07 R177-R179) -/

/-- A block of bytes on its way into core-local memory; it is visible with PROBE_WRITE_VISIBLE. -/
def Fabric.beginWrite (f : Fabric) (w : Seqr) (eid a : Nat) (bs : Bytes) : Fabric :=
  f.updWork w eid fun k => { k with
    outstanding := 1, runs := [{ addr := 0, local_ := a, bytes := bs.length, data := bs }] }

/-- STAMP: 16 bytes, the FCC and the MSC of the die. -/
def execStamp (port chan : Nat) (s : State) : Host.Outcome State Fault Refusal :=
  s.run fun f => f.startOp (.tsq port chan) ocStamp fun f e =>
    let n := f.fccOf (dieOfPort port)
    let bs := toBytesLE (fccWord n).toNat 8 ++ toBytesLE (n / msLen % 2 ^ 40) 8
    f.beginWrite (.tsq port chan) e.eid (fld e.op 31 0) bs

/-- Gateway NIs in use. -/
def Fabric.nGateways (f : Fabric) : Nat := (f.portIds.filter fun p => f.kind p == 3).length

/-- The capability words as one number (R179). DEDUCED (log entry 94). -/
def Fabric.capability (f : Fabric) (p : Nat) : Nat :=
  let v : Nat := match f.variant with | .t1 => 1 | .t2 => 2 | .t4 => 4
  let at_ (lo x : Nat) : Nat := x * 2 ^ lo
  at_ 60 v + at_ 56 (nDies f.variant) + at_ 52 1 + at_ 48 1 + at_ 32 (f.node p) +
  at_ 92 (f.kind p) + at_ 64 p + at_ 127 (b2n (hasRdu f.variant)) + at_ 126 (b2n (hasRdu f.variant)) +
  at_ 125 (b2n (hasTrace f.variant)) + at_ 124 (b2n (!hasRdu f.variant)) +
  at_ 152 16 + at_ 144 64 + at_ 136 64 + at_ 176 256 + at_ 160 512 + at_ 208 f.nGateways +
  at_ 192 (512 * nDies f.variant)

/-- `NI_CH_STAT_c`, `TSQ_CH_PC_c` and `TSQ_CH_DREJ_c` (R180). -/
def Chan.statWord (c : Chan) : Word :=
  mkWord [(29, c.stateCode), (25, if c.halted then 8 else c.reason.toNat), (24, b2n c.prog.isSome),
    (16, c.queue.length), (0, c.started.toNat)]
def Chan.pcWord (c : Chan) : Word := match c.prog with
  | some (pc, _) => pc
  | none => 0
def Chan.drejWord (c : Chan) : Word :=
  mkWord [(28, c.drejStat.toNat), (22, c.drejOp.toNat), (0, c.drejN.toNat)]

/-- The block a PROBE writes, above its header; counters as before the op's own reset. -/
def Fabric.probeBody (f : Fabric) (p psel pidx : Nat) : Nat :=
  let words (ws : List Word) (lo : Nat) : Nat :=
    (ws.zip (List.range ws.length)).foldl (fun a e => a + e.1.toNat * 2 ^ (lo + 32 * e.2)) 0
  match psel with
  | 0 => f.capability p
  | 1 =>
    let c := f.chan (.tsq p pidx)
    words [f.niReg p (0x400 + 16 * pidx), c.statWord, c.pcWord, c.drejWord] 32
  | _ => words (CtrRec.words (((f.ni p).tsq.ctrs.get pidx {}).seen f.time.fcc)) 256

/-- The probe sequence number after n: 1-127, skipping 0. -/
def nextProbe (n : Nat) : Nat := if n ≥ 127 then 1 else n + 1

/-- PROBE: captures in the fc it starts, under R172, and writes one 64 B block. -/
def execProbe (port chan : Nat) (s : State) : Host.Outcome State Fault Refusal :=
  s.run fun f =>
    let w : Seqr := .tsq port chan
    f.startOp w ocProbe fun g e =>
      let psel := fld e.op 95 88
      let pidx := fld e.op 87 80
      let sq := nextProbe (f.ni port).tsq.probeSeq
      let before := if psel == 2 then f else g
      let hdr := 2 ^ 31 + sq * 2 ^ 24 + psel * 2 ^ 16 + pidx * 2 ^ 8
      let f1 := g.updNi port fun n => { n with tsq := { n.tsq with probeSeq := sq } }
      f1.beginWrite w e.eid (fld e.op 31 0) (toBytesLE (hdr + before.probeBody port psel pidx) 64)

/-- PROBE_WRITE_VISIBLE: the block of a STAMP or PROBE is visible and the op completes (R178, R447). -/
def execProbeWriteVisible (port chan : Nat) (s : State) : Host.Outcome State Fault Refusal :=
  s.run fun f => f.when (f.seqLive (.tsq port chan)) <|
    fun f =>
      let w : Seqr := .tsq port chan
      let e? := match f.running w ocProbe with
        | some e => some e
        | none => f.running w ocStamp
      match e? with
      | some e => (e.work.runs.foldl (fun f r => f.lmWrite port r.local_ r.data) f).finish w e.eid .ok 0
      | none => f

end Sys2Proof.Machine
end

