-- ==== Sys2Proof/Machine/Transfers.lean ====
section
/-! DEFINITION. MOVE and MOVEX: cutting, pre-translation, runs and their completion; the Translation
Cache; withdrawal notices (08 R182-R194, R198, R448). -/

namespace Sys2Proof.Machine

/-! ## The Translation Cache (R188) -/

/-- The physical address of a page's frame. -/
def frameOfPa (a : BitVec 48) : BitVec 20 := a.extractLsb' 21 20

/-- Open requests that name an entry. -/
def Ni.tcUse (n : Ni) (t : TcEntry) : Nat := (n.ini.ort.filter fun o => o.tc == some t.id).length

/-- Windows that hold an entry locked. -/
def Ni.tcLock (n : Ni) (t : TcEntry) : Nat :=
  ((n.tsq.chans.flatMap fun c => c.2.queue.filter fun e => !e.aborted).flatMap
    fun e => e.work.wins.filter fun w => w.locks.find? t.page.toNat == some t.id).length

def Ni.tcFree (n : Ni) (t : TcEntry) : Bool := n.tcUse t == 0 && n.tcLock t == 0

/-- The entry a lookup matches. -/
def Ni.tcFind (n : Ni) (dom : BitVec 6) (page : BitVec 36) : Option TcEntry :=
  n.ini.tcache.find? fun t => t.dom == dom && t.page == page && !t.withdrawing

/-- A use of an entry makes it the most recently used. -/
def Ni.tcTouch (n : Ni) (dom : BitVec 6) (page : BitVec 36) : Ni :=
  let fix (t : TcEntry) : TcEntry :=
    if t.dom == dom && t.page == page && !t.withdrawing then { t with stamp := n.ini.stamp + 1 } else t
  { n with ini := { n.ini with tcache := n.ini.tcache.map fix, stamp := n.ini.stamp + 1 } }

/-- The least recently used evictable entry. -/
def Ni.tcVictim (n : Ni) : Option TcEntry :=
  (n.ini.tcache.filter n.tcFree).foldl (fun a t => match a with
    | some b => if t.stamp < b.stamp then some t else some b
    | none => some t) none

/-- Fill an entry, evicting when all 256 are taken. -/
def Ni.tcFill (n : Ni) (dom : BitVec 6) (page : BitVec 36) (frame : BitVec 20) (wp : Bool) : Ni :=
  match n.tcFind dom page with
  | some _ => n.tcTouch dom page
  | none =>
    let keep := if n.ini.tcache.length < 256 then n.ini.tcache
      else match n.tcVictim with
        | some v => n.ini.tcache.filter fun t => t != v
        | none => n.ini.tcache
    { n with ini := { n.ini with
        stamp := n.ini.stamp + 1, tcNext := n.ini.tcNext + 1
        tcache := if keep.length < 256 then
            keep ++ [{ id := n.ini.tcNext, dom := dom, page := page, frame := frame, wp := wp, stamp := n.ini.stamp + 1 }]
          else keep } }

/-! ## Packets of a data op -/

/-- The class of a channel's packets: `SCH` where a binding holds outside crawl (06 R135; 18 R397). -/
def Fabric.chanClass (f : Fabric) (p chan : Nat) : BitVec 3 :=
  if !f.crawl && hasRdu f.variant &&
    (List.range 4).any fun b => bit (f.niReg p (0x340 + 4 * b)) 31 && fld (f.niReg p (0x340 + 4 * b)) 19 16 == chan
  then 1 else 2

/-- The remote descriptor and the direction of a MOVE: whether it writes the remote side (R182). -/
def Work.remote (w : Work) : BitVec 512 × Bool :=
  if dSpace w.src == 1 then (w.dst, true) else (w.src, false)

/-- The packet of run i (R183, R184, R186, R191). -/
def Fabric.runPacket (f : Fabric) (p chan : Nat) (e : QEntry) (i : Nat) (r : Run) : OutPkt :=
  let (rem, wr) := e.work.remote
  let frame := ((e.work.wins[r.win]?.map fun w => w.frames.get (pageOf r.addr).toNat 0).getD 0)
  let entry := ((e.work.wins[r.win]?.map fun w => w.locks.get (pageOf r.addr).toNat 0).getD 0)
  let pa : Nat := frame.toNat * 2 ^ 21 + fld r.addr 20 0
  let xl := dSpace rem == 0
  let a : Nat := if xl then pa else fld r.addr 47 0
  let h : Header :=
    { cls := f.chanClass p chan, kind := BitVec.ofNat 4 (b2n wr), op := BitVec.ofNat 6 (opcOf e.op)
      domain := e.work.dom, dmode := if xl then 0 else BitVec.ofNat 2 (dDmode rem)
      dest := if xl then f.destOf p (portOfPa pa) else BitVec.ofNat 28 (dDest rem)
      src := f.srcOf p, tag := e.work.tags.getD (i / 65536) 0, seq := BitVec.ofNat 16 i
      addr := BitVec.ofNat 48 a, bcnt := BitVec.ofNat 13 r.bytes
      len := BitVec.ofNat 6 (if wr then dataLen a r.bytes else 1) }
  { pkt := { hdr := h, body := if wr then r.data else [] }, purpose := some (if opcOf e.op == ocMove || opcOf e.op == ocMovex then .run chan e.eid i else .mcRead chan e.eid i)
    local_ := r.local_, tc := if xl then some entry else none }

/-- A queued packet of a later window of the same op. -/
def QEntry.later (e : QEntry) (win : Nat) (o : OutPkt) : Bool :=
  let past (c : Nat) (i : Nat) : Bool := c == e.eid && ((e.work.runs[i]?).map fun r => decide (r.win > win)).getD false
  match o.purpose with
  | some (.run _ c i) => past c i
  | some (.mcRead _ c i) => past c i
  | _ => false

/-- The packets of a window, or of a whole untranslated op, are queued, before those of later windows
(R191). -/
def Fabric.queueRuns (f : Fabric) (p chan eid win : Nat) : Fabric :=
  match f.entry (.tsq p chan) eid with
  | none => f
  | some e =>
    let new := ((e.work.runs.zip (List.range e.work.runs.length)).filter fun x => x.1.win == win).map fun x =>
      { f.runPacket p chan e x.2 x.1 with at_ := f.time.fcc }
    let q := f.injQ p chan
    f.setInjQ p chan (q.takeWhile (fun o => !e.later win o) ++ new ++ q.dropWhile fun o => !e.later win o)

/-! ## Start (R169, R182) -/

/-- What an op captures of a slot: in the fc of a write, what the slot held before it (07 R168). -/
def Fabric.slot (f : Fabric) (p n : Nat) : Option (BitVec 512) :=
  let q := (f.ni p).tsq
  match q.slotWas.find? n with
  | some (t, old) => if t = f.time.fcc then old else q.slots.find? n
  | none => q.slots.find? n

/-- The start checks of MOVE and MOVEX (07 R169). -/
def moveOk (convert : Bool) (s d : BitVec 512) (st dt : Nat) : Bool :=
  tileIn s st && tileIn d dt && (List.range 4).all (fun i => tileExt s st i == tileExt d dt i) &&
  (dSpace s == 1 || dSpace d == 1) &&
  (if convert then convertible (dFmt s) (dFmt d) else dFmt s == dFmt d)

/-- Consecutive slices of the given lengths. -/
def cutBytes (bs : Bytes) : List Run → List Run
  | [] => []
  | r :: rs => { r with data := sliceBytes bs 0 r.bytes } :: cutBytes (bs.drop r.bytes) rs

/-- Bytes of the tile in the other side's format: converted for MOVEX, as they are for MOVE. -/
def moveBytes (convert : Bool) (op : Op) (src dst : BitVec 512) (bs : Bytes) : Bytes :=
  if convert then convertBytes (dFmt src) (dFmt dst) (fld op 35 34) (bit op 33) bs else bs

/-- An op whose last packet has been injected or refused is issued (07 R162). -/
def Fabric.checkIssued (f : Fabric) (w : Seqr) (eid : Nat) : Fabric :=
  match f.entry w eid with
  | some e => if e.work.toInject == 0 && !e.issued then
      (((f.passOn w e.op).updEntry w eid fun x => { x with issued := true }).updChan w
        fun c => { c with reason := if c.halted then 8 else 0 }).finishIfDone w eid
    else f
  | none => f

/-- The stretches of n bytes at an address that lie in one 128 B line each: address and length. -/
def lineCuts (a n : Nat) : List (Nat × Nat) :=
  (List.range (if n = 0 then 0 else ceilDiv (a % 128 + n) 128)).map fun i =>
    let lo := max a (128 * (a / 128 + i))
    (lo, min (a + n) (128 * (a / 128 + i + 1)) - lo)

/-- The lines of a local copy: every row of the destination tile is cut at its lines (R182). -/
def copyRuns (d : BitVec 512) (dt : Nat) (bs : Bytes) : List Run :=
  let n := rowBytes d dt
  ((tileRows d dt).zip (List.range (tileRows d dt).length)).flatMap fun x =>
    (lineCuts x.1 n).map fun c =>
      { addr := 0, local_ := c.1, bytes := c.2, data := sliceBytes bs (n * x.2 + (c.1 - x.1)) c.2 }

/-- A started local copy with lines left to write. -/
def QEntry.copying (e : QEntry) : Bool :=
  e.started && !e.aborted && (opcOf e.op == ocMove || opcOf e.op == ocMovex) &&
    dSpace e.work.src == 1 && dSpace e.work.dst == 1 && !e.work.runs.isEmpty

/-- A local copy writes its next line, and completes at its last byte (R182). -/
def Fabric.copyLine (f : Fabric) (p chan : Nat) (e : QEntry) : Fabric :=
  let w : Seqr := .tsq p chan
  match e.work.runs with
  | [] => f
  | r :: rs => ((f.lmWrite p r.local_ r.data).updWork w e.eid fun k => { k with
      runs := rs, committed := k.committed + r.bytes, outstanding := b2n !rs.isEmpty }).finishIfDone w e.eid

/-- One fc of an NI's local copies: one line of the first of them. DESIGN CHOICE (log entry 154). -/
def Fabric.copyStep (f : Fabric) (p : Nat) : Fabric :=
  let l := (f.ni p).tsq.chans.flatMap fun c => (c.2.queue.filter QEntry.copying).map fun e => (c.1, e)
  match l with
  | x :: _ => f.copyLine p x.1 x.2
  | [] => f

/-- A MOVE or MOVEX starts. -/
def Fabric.startMove (f : Fabric) (p chan : Nat) (e : QEntry) (convert : Bool) (data : Bytes) : Fabric :=
  let w : Seqr := .tsq p chan
  let st := fld e.op 83 60
  let dt := fld e.op 59 36
  let bad := f.finish w e.eid .malformed (infoMal e.op 0x01 0)
  match f.slot p (fld e.op 95 90), f.slot p (fld e.op 89 84) with
  | some s, some d =>
    if !moveOk convert s d st dt then bad
    else
      let out := moveBytes convert e.op s d data
      if dSpace s == 1 && dSpace d == 1 then
        let rs := copyRuns d dt out
        (f.updWork w e.eid fun k => { k with
          src := s, dst := d, runs := rs, outstanding := b2n !rs.isEmpty }).checkIssued w e.eid
      else
        let wr := dSpace s == 1
        let runs0 := if wr then cutBytes out (runsOf d s dt st convert) else runsOf s d st dt convert
        let rem := if wr then d else s
        let xl := dSpace rem == 0
        let runs := if xl then numberWindows 0 [] runs0 else runs0
        let f1 := f.updWork w e.eid fun k => { k with
          src := s, dst := d, runs := runs, wins := if xl then windowsOf runs else []
          outstanding := runs.length, toInject := runs.length }
        let f2 := f1.takeTags p chan e.eid (ceilDiv runs.length 65536)
        if xl then
          (f2.updNi p fun n => { n with ini := { n.ini with walkQ := n.ini.walkQ ++ [(chan, e.eid, 0)] } }).updChan w
            fun c => { c with reason := 1 }
        else f2.queueRuns p chan e.eid 0
  | _, _ => bad

/-- MOVE (R182). -/
def execMove (port chan : Nat) (data : Bytes) (s : State) : Host.Outcome State Fault Refusal :=
  s.run fun f => f.startOp (.tsq port chan) ocMove fun f e => f.startMove port chan e false data

/-- MOVEX (R185). -/
def execMovex (port chan : Nat) (data : Bytes) (s : State) : Host.Outcome State Fault Refusal :=
  s.run fun f => f.startOp (.tsq port chan) ocMovex fun f e => f.startMove port chan e true data

/-! ## Windows (R189-R192) -/

/-- Change window w of an op. -/
def Fabric.updWin (f : Fabric) (p chan eid w : Nat) (g : XWin → XWin) : Fabric :=
  f.updWork (.tsq p chan) eid fun k => { k with wins := k.wins.modify w g }

/-- Pages of windows whose walk has not been answered and that have a request out. -/
def Ni.walksOut (n : Ni) : Nat :=
  (n.ini.ort.filter fun o => match o.purpose with | .walk .. => true | _ => false).length +
  ((n.inj.queues.get 103 []).filter fun o => match o.purpose with | some (.walk ..) => true | _ => false).length

/-- A walk request for a page of a window is on its way. -/
def Ni.walkSent (n : Ni) (chan eid win : Nat) (page : BitVec 36) : Bool :=
  let is (u : Purpose) : Bool := match u with
    | .walk c e w _ pg => c == chan && e == eid && w == win && pg == page
    | _ => false
  n.ini.ort.any (fun o => is o.purpose) ||
  (n.inj.queues.get 103 []).any fun o => match o.purpose with | some u => is u | none => false

/-- Whether the op writes the pages of its remote side. -/
def Fabric.opWrites (f : Fabric) (p chan eid : Nat) : Bool :=
  match f.entry (.tsq p chan) eid with
  | some e => opcOf e.op != ocMcast && opcOf e.op != ocReduce && e.work.remote.2
  | none => false

/-- The walk request for a page (R191). -/
def Fabric.walkPacket (f : Fabric) (p chan eid win : Nat) (dom op : BitVec 6) (page : BitVec 36) : Fabric :=
  let (t, f1) := f.takeTag p
  let a : Nat := b2n (f.opWrites p chan eid) * 2 ^ 39 + page.toNat * 8
  let h : Header := { cls := 2, kind := 0, op := op, domain := dom, dest := f.destOf p (walkPort p)
                      src := f.srcOf p, tag := t, addr := BitVec.ofNat 48 a, bcnt := 8 }
  f1.enqueue p 103 { pkt := { hdr := h }, purpose := some (.walk chan eid win dom page) }

/-- Walk requests are sent for waiting pages, in order, up to 16 outstanding (R191). -/
def Fabric.pumpWalks (f : Fabric) (p : Nat) : Fabric :=
  let todo := (f.ni p).tsq.chans.flatMap fun c => c.2.queue.flatMap fun e =>
    if e.aborted then [] else
    (e.work.wins.zip (List.range e.work.wins.length)).flatMap fun w =>
      w.1.waiting.map fun pg => (c.1, e, w.2, pg)
  todo.foldl (fun g x =>
    if (g.ni p).walksOut < 16 && !(g.ni p).walkSent x.1 x.2.1.eid x.2.2.1 x.2.2.2 then
      g.walkPacket p x.1 x.2.1.eid x.2.2.1 x.2.1.work.dom (BitVec.ofNat 6 (opcOf x.2.1.op)) x.2.2.2
    else g) f

/-- The op counts a run of its own as no longer waiting to be injected. -/
def Work.oneGone (k : Work) : Work := { k with toInject := k.toInject - 1 }

/-- Chunks of a REDUCE that need a run of the faulting window or of a later one. -/
def Work.lostChunk (k : Work) (win : Nat) (c : Chunk) : Bool :=
  !c.sent && !c.done && k.runs.any fun r =>
    r.win ≥ win && !r.done && r.local_ < c.off + c.len && c.off < r.local_ + r.bytes

/-- Runs of the faulting window and of every later one are given up; the channel halts (R192). -/
def Fabric.faultWindow (f : Fabric) (p chan eid win : Nat) (page : BitVec 36) : Fabric :=
  let w : Seqr := .tsq p chan
  let fault (x : XWin) : XWin := { x with faulted := true, locks := [], waiting := [] }
  let f0 := match f.entry w eid with
    | some e => f.setInjQ p chan ((f.injQ p chan).filter fun o => !e.later win o)
    | none => f
  let f1 := f0.updWork w eid fun k =>
    let lost := if k.chunks.isEmpty then (k.runs.filter fun r => r.win ≥ win && !r.done).length
      else (k.chunks.filter (k.lostChunk win)).length
    { (k.note .xlateFault (BitVec.ofNat 48 (win * 2 ^ 36 + page.toNat))) with
      outstanding := k.outstanding - lost, toInject := k.toInject - lost
      chunks := k.chunks.map fun c => if k.lostChunk win c then { c with done := true } else c
      wins := (k.wins.take win) ++ [fault (k.wins.getD win { pages := [] })] }
  (f1.halt w).checkIssued w eid

/-- A window whose pages and those of the windows before it are all answered is complete, or faults on its
first bad page; the next window becomes ready, or is settled in its turn. -/
def Fabric.settleWindowN (f : Fabric) (p chan eid win : Nat) : Nat → Fabric
  | 0 => f
  | left + 1 =>
  match f.entry (.tsq p chan) eid with
  | none => f
  | some e =>
    match e.work.wins[win]? with
    | none => f
    | some x =>
      if !x.looked || !x.waiting.isEmpty || x.complete || x.faulted || (e.work.wins.take win).any (fun y => !y.complete) then f
      else match x.pages.find? fun pg => x.bad.contains pg with
        | some pg => f.faultWindow p chan eid win pg
        | none =>
          let f1 := f.updWin p chan eid win fun y => { y with complete := true }
          let f2 := f1.queueRuns p chan eid win
          if (e.work.wins[win + 1]?.map (·.looked)).getD true == false && !(f.ni p).ini.walkQ.contains (chan, eid, win + 1) then
            f2.updNi p fun n => { n with ini := { n.ini with walkQ := n.ini.walkQ ++ [(chan, eid, win + 1)] } }
          else if (e.work.wins.drop (win + 1)).all (·.complete) then
            f2.updChan (.tsq p chan) fun c => { c with reason := if c.halted then 8 else 0 }
          else f2.settleWindowN p chan eid (win + 1) left

/-- The window settles, and with it those after it that waited for it. -/
def Fabric.settleWindow (f : Fabric) (p chan eid win : Nat) : Fabric :=
  f.settleWindowN p chan eid win ((((f.entry (.tsq p chan) eid).map fun e => e.work.wins.length).getD 0) + 1)

/-- No locked entry holds the page. -/
def Ni.unlocked (n : Ni) (dom : BitVec 6) (page : BitVec 36) : Bool :=
  match n.tcFind dom page with
  | some t => n.tcLock t == 0
  | none => true

/-- Pages that admitted windows wait for and that will need an entry, each once. -/
def Ni.awaited (n : Ni) : List (BitVec 6 × BitVec 36) :=
  ((n.tsq.chans.flatMap fun c => c.2.queue.filter fun e => !e.aborted).flatMap fun e =>
    e.work.wins.flatMap fun w => (w.waiting.filter fun pg => n.unlocked e.work.dom pg).map fun pg =>
      (e.work.dom, pg)).eraseDups

/-- The pages a window needs beyond locked entries fit in evictable or free entries, beside those that
admitted windows still wait for (R189). -/
def Ni.admits (n : Ni) (dom : BitVec 6) (pages : List (BitVec 36)) : Bool :=
  let held := (n.ini.tcache.filter fun t => !n.tcFree t).length
  let coming := n.awaited
  let need := (pages.filter fun pg => n.unlocked dom pg && !coming.contains (dom, pg)).length
  need + coming.length + held ≤ 256

/-- One page of an admitted window is looked up. -/
def Fabric.lookPage (f : Fabric) (p chan eid win : Nat) (dom : BitVec 6) (page : BitVec 36) : Fabric :=
  match (f.ni p).tcFind dom page with
  | some t =>
    let f1 := f.updNi p fun n => n.tcTouch dom page
    f1.updWin p chan eid win fun x =>
      if f.opWrites p chan eid && !t.wp then { x with bad := x.bad ++ [page] }
      else { x with locks := x.locks.put page.toNat t.id, frames := x.frames.put page.toNat t.frame }
  | none =>
    (f.updNi p fun n => { n with ini := { n.ini with misses := n.ini.misses + 1 } }).updWin p chan eid win
      fun x => { x with waiting := x.waiting ++ [page] }

/-- PRETRANSLATE_WINDOW (R189, R191): the window first in line, if it is the channel's. -/
def execPretranslateWindow (port chan : Nat) (s : State) : Host.Outcome State Fault Refusal :=
  s.run fun f => f.when (f.seqLive (.tsq port chan)) <|
    fun f =>
      match (f.ni port).ini.walkQ with
      | [] => f
      | (c, eid, win) :: rest =>
        if c != chan then f
        else match f.entry (.tsq port chan) eid with
        | none => f.updNi port fun n => { n with ini := { n.ini with walkQ := rest } }
        | some e =>
          let pages := ((e.work.wins[win]?).map (·.pages)).getD []
          if !(f.ni port).admits e.work.dom pages then f.updChan (.tsq port chan) fun c => { c with reason := 1 }
          else
            let f1 := f.updNi port fun n => { n with ini := { n.ini with walkQ := rest } }
            let f2 := f1.updWin port chan eid win fun x =>
              { x with admitted := true, looked := true, waiting := [], bad := [] }
            let f3 := pages.foldl (fun g pg => g.lookPage port chan eid win e.work.dom pg) f2
            (f3.pumpWalks port).settleWindow port chan eid win

/-! ## Answers to runs (R185, R195, R198) -/

/-- MOVEX of a read: whole units of a run, and units whose two parts have both arrived. -/
def Fabric.convertRun (f : Fabric) (p : Nat) (e : QEntry) (i : Nat) : Fabric :=
  let k := e.work
  let ur := unitBytes (dFmt k.src) (dFmt k.dst)
  let ul := unitBytes (dFmt k.dst) (dFmt k.src)
  let cv (bs : Bytes) : Bytes := convertBytes (dFmt k.src) (dFmt k.dst) (fld e.op 35 34) (bit e.op 33) bs
  let whole (r : Run) : Nat := (r.bytes - r.skip) / ur
  let straddle (f : Fabric) (j : Nat) : Fabric :=
    match k.runs[j]?, k.runs[j + 1]? with
    | some a, some b =>
      if b.skip > 0 && a.data.length == a.bytes && b.data.length == b.bytes then
        f.lmWrite p (a.local_ + whole a * ul) (cv (a.data.drop (a.skip + whole a * ur) ++ b.data.take b.skip))
      else f
    | _, _ => f
  match k.runs[i]? with
  | none => f
  | some r =>
    let f1 := f.lmWrite p r.local_ (cv ((r.data.drop r.skip).take (whole r * ur)))
    let f2 := if i > 0 && r.skip > 0 then straddle f1 (i - 1) else f1
    straddle f2 i

/-- A run of a MOVE or MOVEX ends with a status; data of a read is written to local memory. -/
def Fabric.settleRun (f : Fabric) (p chan eid i : Nat) (st : Status) (info : BitVec 48) (data : Option Bytes) : Fabric :=
  let w : Seqr := .tsq p chan
  match f.entry w eid with
  | none => f
  | some e =>
    match e.work.runs[i]? with
    | none => f.settled w eid st info
    | some r =>
      let wr := e.work.remote.2
      let good := if wr then st == .ok || st == .partPoison else st == .ok || st == .poison
      let good := good && (wr || data.isSome)
      let f1 := f.updWork w eid fun k =>
        let runs := k.runs.modify i fun x => { x with done := true, data := if wr then [] else data.getD [] }
        let last := !runs.any fun x => x.win == r.win && !x.done
        { (k.noteSeq st info i) with
          runs := runs, committed := k.committed + (if good then r.bytes else 0)
          wins := if last then k.wins.modify r.win fun x => { x with locks := [] } else k.wins }
      let f2 := match data with
        | some bs => if opcOf e.op == ocMovex then
            (match f1.entry w eid with | some e1 => f1.convertRun p e1 i | none => f1)
          else f1.lmWrite p r.local_ bs
        | none => f1
      f2.settled w eid .ok 0

/-! ## Walk answers (R191, R192; 16 R365) -/

/-- What a walk answer says: none where it breaks the protocol. -/
def walkEntry (a : Packet) : Option (Bool × Bool × BitVec 20) :=
  let n := ofBytesLE a.body
  if a.hdr.bcnt != 8 || n / 2 ^ 20 % 2 ^ 42 != 0 then none
  else some (n / 2 ^ 63 % 2 == 1, n / 2 ^ 62 % 2 == 1, BitVec.ofNat 20 n)

/-- The answer of a page reaches its window. -/
def Fabric.walkDone (f : Fabric) (p chan eid win : Nat) (dom : BitVec 6) (page : BitVec 36)
    (ans : Option (Bool × BitVec 20)) : Fabric :=
  let wr := f.opWrites p chan eid
  let f1 := match ans with
    | some (wp, frame) =>
      let f0 := f.updNi p fun n => n.tcFill dom page frame wp
      let (id, frame') := match (f0.ni p).tcFind dom page with
        | some t => (t.id, t.frame)
        | none => (0, frame)
      f0.updWin p chan eid win fun x =>
        if !x.waiting.contains page then x
        else if wr && !wp then { x with waiting := x.waiting.filter (· != page), bad := x.bad ++ [page] }
        else { x with waiting := x.waiting.filter (· != page), locks := x.locks.put page.toNat id
                      frames := x.frames.put page.toNat frame' }
    | none => f.updWin p chan eid win fun x =>
        if x.waiting.contains page then { x with waiting := x.waiting.filter (· != page), bad := x.bad ++ [page] } else x
  (f1.settleWindow p chan eid win).pumpWalks p

/-! ## Withdrawal (R193, R194) -/

/-- A window that has not injected a packet translates the page again: its packets are taken back, with
those of the windows after it, and it waits for a new answer (R194 rule 3; R191). -/
def Fabric.retranslate (f : Fabric) (p : Nat) (dom : BitVec 6) (page : BitVec 36) : Fabric :=
  let hits := (f.ni p).tsq.chans.flatMap fun c => c.2.queue.flatMap fun e =>
    (e.work.wins.zip (List.range e.work.wins.length)).filterMap fun w =>
      if e.work.dom == dom && (w.1.locks.find? page.toNat).isSome && !w.1.issued && !w.1.faulted then some (c.1, e, w.2) else none
  hits.foldl (fun g x =>
    let mine (o : OutPkt) : Bool := match o.purpose with
      | some (.run c e i) => c == x.1 && e == x.2.1.eid && ((x.2.1.work.runs[i]?).map fun r => decide (r.win ≥ x.2.2)) == some true
      | some (.mcRead c e i) => c == x.1 && e == x.2.1.eid && ((x.2.1.work.runs[i]?).map fun r => decide (r.win ≥ x.2.2)) == some true
      | _ => false
    let g1 := g.setInjQ p x.1 ((g.injQ p x.1).filter fun o => !mine o)
    let g2 := g1.updWin p x.1 x.2.1.eid x.2.2 fun y =>
      { y with locks := y.locks.del page.toNat, waiting := y.waiting ++ [page] }
    let g3 := (g2.updWork (.tsq p x.1) x.2.1.eid fun k => { k with
      wins := k.wins.take x.2.2 ++ (k.wins.drop x.2.2).map fun y => { y with complete := false } }).updChan (.tsq p x.1)
        fun c => { c with reason := if c.halted then 8 else 1 }
    g3.pumpWalks p) f

/-- Nothing names an entry any more. -/
def Ni.entryFree (n : Ni) (id : Nat) : Bool := n.ini.tcache.all fun t => t.id != id || n.tcFree t

/-- The answer to a notice (R194 rule 4). -/
def Fabric.answerNotice (f : Fabric) (p : Nat) (n : Packet) : Fabric :=
  (f.answer p { hdr := { answerHdr n.hdr 3 .ok (f.node p) p with bcnt := 8 } }).updNi p
    fun x => { x with ini := { x.ini with answered := x.ini.answered + 1 } }

def noticePage (n : Packet) : BitVec 36 := n.hdr.addr.extractLsb' 3 36

/-- TAG_HOLD_EXPIRY (R197): the tag may be issued again. -/
def execTagHoldExpiry (port : Nat) (tag : BitVec 12) (s : State) : Host.Outcome State Fault Refusal :=
  s.run fun f => f.when (f.moving && f.powered port) <|
    fun f =>
      match (f.ni port).ini.heldTags.find? fun x => x.1 == tag with
      | some (_, t) =>
        if f.due t then (f.reach t).updNi port fun n => { n with ini := { n.ini with
          heldTags := n.ini.heldTags.filter fun x => x.1 != tag } } else f
      | none => f

end Sys2Proof.Machine
end

