-- ==== Sys2Proof/Machine/NiOps.lean ====
section
/-! DEFINITION. What every NI does alike: its counts and latency bins, trace records, and taking a
packet from its receive buffer; withdrawal notices (03 R66, R80, R81; 05 R116; 08 R193, R194; 19
R405-R407, R417-R421). -/

namespace Sys2Proof.Machine

/-! ## Counts (R405-R407) -/

/-- A packet of a class leaves (`io` 0) or is delivered (`io` 1): packets and bytes. -/
def Fabric.niCount (f : Fabric) (p io : Nat) (h : Header) : Fabric :=
  let k := 4 * h.cls.toNat + 2 * io
  f.updNi p fun n => { n with obs := { n.obs with
    cls := (n.obs.cls.upd k 0 fun x => (x + 1) % 2 ^ 48).upd (k + 1) 0 fun x => (x + h.bcnt.toNat) % 2 ^ 48 } }

/-- The latency bin of a measurement (R407). -/
def latBin (lat : Nat) : Nat := if lat < 64 then 0 else if lat ≥ 2 ^ 20 then 15 else lat.log2 - 5

/-- A measurement of initiator i: bins at 32·i + b, count at 32·i + 16, sum at 32·i + 17. -/
def Fabric.niLat (f : Fabric) (p i lat : Nat) : Fabric :=
  f.updNi p fun n => { n with obs := { n.obs with
    lat := ((n.obs.lat.upd (32 * i + latBin lat) 0 fun x => (x + 1) % 2 ^ 32).upd (32 * i + 16) 0
      fun x => (x + 1) % 2 ^ 48).upd (32 * i + 17) 0 fun x => (x + lat) % 2 ^ 64 } }

/-! ## Trace (R417-R421) -/

/-- Trace capture is on for a die. -/
def Fabric.tracing (f : Fabric) (die : Nat) : Bool :=
  hasTrace f.variant && bit (f.niReg (slicePort die) 0x1310) 31

/-- A 256-bit record: type, FCC of the die, and bits [191:0]. -/
def traceRec (rtype fcc low : Nat) : BitVec 256 :=
  BitVec.ofNat 256 (rtype * 2 ^ 252 + fcc % 2 ^ 60 * 2 ^ 192 + low % 2 ^ 192)

/-- The packet part of a record. -/
def tracePkt (srcid out : Nat) (h : Header) : Nat :=
  srcid * 2 ^ 176 + out * 2 ^ 172 + h.seq.toNat * 2 ^ 156 + h.dest.toNat * 2 ^ 128 + h.src.toNat * 2 ^ 100 +
    (Header.toBits h).toNat / 2 ^ 192

/-- A drop is counted and owed (R420). -/
def Trace.drop (t : Trace) (fcc : Nat) : Trace :=
  { t with lost := t.lost + 1, owed := t.owed + 1
           firstDrop := if t.owed = 0 then BitVec.ofNat 60 fcc else t.firstDrop }

/-- A record joins a unit's queue of four, or is dropped. -/
def Fabric.traceNi (f : Fabric) (p : Nat) (r : BitVec 256) : Fabric :=
  if (f.ni p).obs.traceQ.length < 4 then
    f.updNi p fun n => { n with obs := { n.obs with traceQ := n.obs.traceQ ++ [r] } }
  else f.updDie (dieOfPort p) fun d => { d with trace := d.trace.drop (f.fccOf (dieOfPort p)) }
def Fabric.traceStop (f : Fabric) (s : Nat) (r : BitVec 256) : Fabric :=
  if (f.stopU s).obs.traceQ.length < 4 then
    f.updStop s fun x => { x with obs := { x.obs with traceQ := x.obs.traceQ ++ [r] } }
  else f.updDie (dieOfStop s) fun d => { d with trace := d.trace.drop (f.fccOf (dieOfStop s)) }

/-- An NI injects (type 1) or is delivered (type 2) a traced packet. -/
def Fabric.tracePacket (f : Fabric) (p rtype : Nat) (h : Header) : Fabric :=
  f.when (h.trace == 1 && f.tracing (dieOfPort p)) fun f =>
    f.traceNi p (traceRec rtype (f.fccOf (dieOfPort p)) (tracePkt (3 * 2 ^ 12 + p) 0 h))

/-- `TRACE` of a packet of queue q: every 2^RATE-th packet of a selected queue (R417). -/
def Fabric.traceBit (f : Fabric) (p q : Nat) : Bool × Fabric :=
  let w := f.niReg p 0x1300
  let on := hasTrace f.variant && f.kind p == 1 && (if q < 16 then bit w (16 + q) else q == 16 && bit w 15)
  if !on then (false, f)
  else
    let n := (f.ni p).obs.traceCnt.get q 0 + 1
    (n % 2 ^ fld w 3 0 == 0, f.updNi p fun x => { x with obs := { x.obs with traceCnt := x.obs.traceCnt.put q n } })

/-! ## Taking a packet (03 R66, R81; 05 R116) -/

/-- The oldest complete packet that satisfies a test leaves the receive buffer. One whose check
fails or that is truncated is discarded with its fault. -/
def Fabric.niTake (f : Fabric) (p : Nat) (t : QPkt → Bool) (k : Fabric → Packet → QPkt → Fabric) : Fabric :=
  match takeVc t f p (List.range 12) with
  | none => f
  | some (q, f1) =>
    if !Header.checks q.hdr then f1.raiseNi p .hdrCheck (infoIcv 0 0 0)
    else if q.truncated then
      (f1.niErr p 4).raiseNi p .truncated (p + q.hdr.tag.toNat * 2 ^ 20)
    else k f1 q.packet q

/-- Step 8 of R81: the packet breaks R69, R75 or R79. -/
def badHeader (h : Header) : Bool :=
  h.dmode == 3 || !kindLegal h || !lengthsLegal h || h.status == 15

/-- The NI answers a request with a status and no data, and counts a `MALFORMED` (R80, R406). -/
def Fabric.niRefuse (f : Fabric) (p : Nat) (h : Header) (st : Status) : Fabric :=
  let f1 := if st = .malformed then f.niErr p 8 else f
  f1.answer? p (refusal h st (f.node p) p)

/-! ## Withdrawal notices (08 R193, R194) -/

/-- A notice: a `WR_REQ` in `REQ` whose `ADDR`[47:40] is 0xFF (R193). -/
def isNotice (h : Header) : Bool := h.kind == 1 && h.cls == 2 && fld h.addr 47 40 == 0xFF

/-- A packet that lies at the front of a VC of the receive buffer leaves it. -/
def Fabric.leaveBuffer (f : Fabric) (p : Nat) (h : Header) : Fabric :=
  match takeVc (fun q => q.hdr == h) f p (List.range 12) with
  | some (_, g) => g
  | none => f

/-- A notice is taken up: it waits for its entry, or is answered at once (R194). DEDUCED (log entry 104). -/
def Fabric.takeNotice (f0 : Fabric) (p : Nat) (notice : Packet) : Fabric :=
  let f := f0.leaveBuffer p notice.hdr
  let dom := notice.hdr.domain
  let pg := noticePage notice
  let hit := ((f.ni p).tcFind dom pg).map (·.id)
  -- an answer to a walk sent before the notice is discarded and the walk is sent again
  let stale (o : OrtEntry) : OrtEntry := match o.purpose with
    | .walk _ _ _ d q => if d == dom && q == pg then { o with nack := 1 } else o
    | _ => o
  let f1 := f.updNi p fun n => { n with ini := { n.ini with
    tcache := n.ini.tcache.map fun t => if some t.id == hit then { t with withdrawing := true } else t
    ort := n.ini.ort.map stale } }
  let f2 := f1.retranslate p dom pg
  match hit with
  | none => f2.answerNotice p notice
  | some id =>
    if (f2.ni p).entryFree id then
      (f2.updNi p fun n => { n with ini := { n.ini with tcache := n.ini.tcache.filter fun t => t.id != id } }).answerNotice p notice
    else f2.updNi p fun n => { n with ini := { n.ini with notices := n.ini.notices ++ [(notice, id)] } }

/-- WITHDRAWAL_NOTICE (R193, R194): accepted from a translation-service port of the node; with 32 in
progress it waits in the receive buffer. DEDUCED (log entry 104). -/
def execWithdrawalNotice (port : Nat) (notice : Packet) (s : State) : Host.Outcome State Fault Refusal :=
  s.run fun f => f.when (f.moving && f.kind port == 1 && f.powered port && isNotice notice.hdr) <|
    fun f =>
      let src := fld notice.hdr.src 9 0
      if badHeader notice.hdr || f.kind src != 6 || fld notice.hdr.src 25 10 != f.node port then
        (f.leaveBuffer port notice.hdr).niRefuse port notice.hdr .malformed
      else if (f.ni port).ini.notices.length ≥ 32 then
        if (f.ni port).ini.noticeWait.contains notice then f
        else f.updNi port fun n => { n with ini := { n.ini with noticeWait := n.ini.noticeWait ++ [notice] } }
      else f.takeNotice port notice

/-- NOTICE_RELEASE (R193; R194 rule 4): the oldest notice whose entry nothing names any more is answered,
and a notice that waits is taken up. DEDUCED (log entry 104). -/
def execNoticeRelease (port : Nat) (s : State) : Host.Outcome State Fault Refusal :=
  s.run fun f => f.when (f.moving && f.kind port == 1 && f.powered port) <|
    fun f =>
      match takeFirst (fun x => (f.ni port).entryFree x.2) (f.ni port).ini.notices with
      | none => f
      | some (x, rest) =>
        let f1 := (f.updNi port fun n => { n with ini := { n.ini with
          notices := rest, tcache := n.ini.tcache.filter fun t => t.id != x.2 } }).answerNotice port x.1
        match (f1.ni port).ini.noticeWait with
        | [] => f1
        | y :: more => (f1.updNi port fun n => { n with ini := { n.ini with noticeWait := more } }).takeNotice port y

end Sys2Proof.Machine
end

