-- ==== Sys2Proof/Machine/GwOps.lean ====
section
/-! DEFINITION. End-to-end credits between nodes: `XCREDIT` packets, grants and returns, and what a
Gateway NI holds for its transport (13 R302-R307). -/

namespace Sys2Proof.Machine

/-- Node and port of a coordinate address. -/
def nodeOf (a : BitVec 28) : Nat := fld a 25 10
def portOf (a : BitVec 28) : Nat := fld a 9 0

/-! ## `XCREDIT` (R306) -/

/-- The next sequence number towards a destination, for a kind. -/
def Fabric.nextGs (f : Fabric) (p key : Nat) : Nat × Fabric :=
  let n := (f.ni p).gseq.next.get key 1
  (n, f.updNi p fun x => { x with gseq := { x.gseq with next := x.gseq.next.put key (nextGseq n) } })

/-- An `XCREDIT` of a kind. -/
def Fabric.xcredit (f : Fabric) (p kind grant : Nat) (dest : BitVec 28) (gseq : Nat) : Packet :=
  { hdr := { cls := 5, kind := 14, op := opNone, dest := dest, src := f.srcOf p, addr := BitVec.ofNat 48 kind }
    aux := xcAux grant gseq }

/-- An `XCREDIT` to a port of the node joins its queue. -/
def Fabric.sendX (f : Fabric) (p kind grant q : Nat) : Fabric :=
  let (g, f1) := f.nextGs p (4 * q + kind)
  f1.enqueue p 104 { pkt := f.xcredit p kind grant (f.destOf p q) g }

/-! ## Target tokens (R305) -/

/-- Deferred answers of the FWD part in use, and of the SCH part. -/
def Target.used (t : Target) : Nat := (t.dat.filter (·.fwd)).length
def Target.sused (t : Target) : Nat := (t.dat.filter fun d => !d.fwd).length

/-- Waiting token requests are answered, oldest first, while tokens are free. -/
def Fabric.grantTokens (f : Fabric) (p : Nat) : Nat → Fabric
  | 0 => f
  | n + 1 =>
    let t := (f.ni p).tgt
    match t.tokReqs with
    | [] => f
    | (g, asked) :: rest =>
      let k := min (256 - t.used - t.granted) asked
      if k = 0 then f
      else ((f.updNi p fun x => { x with tgt := { x.tgt with
        tokReqs := rest, granted := x.tgt.granted + k } }).sendX p 2 k g).grantTokens p n

/-- An entry of the Deferred Answer Table is freed (R299). -/
def Fabric.freeDat (f : Fabric) (p id : Nat) : Fabric :=
  let f1 := f.updNi p fun n => { n with tgt := { n.tgt with dat := n.tgt.dat.filter fun d => d.id != id } }
  f1.grantTokens p (f1.ni p).tgt.tokReqs.length

/-- A packet goes to the transport behind a gateway, its check written (03 R66). -/
def Fabric.toTransport (f : Fabric) (p : Nat) (x : Packet) : Fabric :=
  f.updNi p fun n => { n with gw := { n.gw with
    toTransport := n.gw.toTransport ++ [({ x with hdr := Header.seal x.hdr }, f.time.fcc)] } }

/-! ## Remote credit (R304) -/

/-- The `PINIT` of a peer node, none where no valid entry names it. -/
def Fabric.peerInit (f : Fabric) (p node : Nat) : Option Nat :=
  ((List.range 16).find? fun i => bit (f.niTab p 4 i) 31 && fld (f.niTab p 4 i) 15 0 == node).map
    fun i => fld (f.niTab p 4 i) 30 16

/-- The receiving gateway gives back the ingress credit of a packet. The port of the peer gateway is
not stated: a free value. DESIGN CHOICE (log entry 45). -/
def Fabric.gwRelease (f : Fabric) (p : Nat) (x : Packet) : Fabric :=
  let node := nodeOf x.hdr.src
  let n := x.hdr.len.toNat
  let (g, f1) := f.nextGs p (4 * (node * 1024) + 1)
  let dest : BitVec 28 := BitVec.ofNat 28 (node * 1024 + (Config.freeValue 10 f.freeCtr).toNat)
  let f2 := f1.updNi p fun y => { y with gw := { y.gw with
    inFrom := y.gw.inFrom.upd node 0 (· - n), inUsed := y.gw.inUsed - n } }
  (f2.toTransport p (f.xcredit p 1 n dest g)).draw

/-! ## Egress credit (R303) -/

/-- The gateway returns the egress credit of a request to the Core NI that sent it. -/
def Fabric.egReturn (f : Fabric) (p : Nat) (x : Packet) : Fabric :=
  let n := x.hdr.len.toNat
  (f.updNi p fun y => { y with gw := { y.gw with egUsed := y.gw.egUsed - n } }).sendX p 0 n (portOf x.hdr.src)

/-! ## Requests between nodes -/

/-- A `FWD` request (R302). -/
def isFwdReq (h : Header) : Bool := h.cls == 5 && isRequestKind h.kind.toNat

/-- A gateway answers a request that came from a remote node: through its transport (R304, R305); a
refused SIG is dropped (03 R70). `ECHO` is the arriving `MARK`: DESIGN CHOICE (log entry 172). -/
def Fabric.gwAnswer (f : Fabric) (p : Nat) (h : Header) (st : Status) : Fabric :=
  match refusal h st (f.node p) p with
  | some a => f.toTransport p a
  | none => if h.kind == 4 then (f.niErr p 3).raiseNi p .sigDrop (infoDrop h st) else f

end Sys2Proof.Machine
end

