-- ==== Sys2Proof/Machine/McSource.lean ====
section
/-! DEFINITION. Multicast at its source: the op MCAST, the Group Cache, cutting, splitting at the
injecting NI, and the counting of answers (09 R209-R214, R222, R223, R224). -/

namespace Sys2Proof.Machine

/-! ## Group entries (R209) -/

def grpValid (ws : List Word) : Bool := bit (ws.headD 0) 31
def grpPmask (ws : List Word) : Nat := fld (ws.headD 0) 27 24
def grpDomain (ws : List Word) : Nat := fld (ws.headD 0) 21 16
def grpNleaf (ws : List Word) : Nat := fld (ws.headD 0) 10 0
/-- The stop mask, bit n stop n. -/
def grpMask (ws : List Word) : Nat := ((List.range 8).map fun i => (ws.getD (1 + i) 0).toNat * 2 ^ (32 * i)).sum
/-- The remote entries in force: node and group. -/
def grpRemote (ws : List Word) : List (Nat × Nat) :=
  ((ws.drop 9).filter fun w => bit w 31).map fun w => (fld w 15 0, fld w 27 16)

/-- Answer Pool flits of a run (13 R301). -/
def mcPool (ws : List Word) : Nat := popcountN 256 (grpMask ws) + (grpRemote ws).length

/-! ## The Group Cache (R211) and lookups in it -/

/-- A cache with an entry filled: the least recently used of its set goes when the set is full.
DEDUCED (log entry 105). -/
def cachePut (c : List CacheEnt) (same : Nat → Bool) (cap : Nat) (e : CacheEnt) : List CacheEnt :=
  let c1 := c.filter fun x => !(x.key == e.key && x.epoch == e.epoch)
  let set := c1.filter fun x => same x.key
  if set.length < cap then c1 ++ [e]
  else
    let old := set.foldl (fun a x => if x.stamp < a then x.stamp else a) ((set.headD e).stamp)
    (c1.filter fun x => !(same x.key && x.stamp == old)) ++ [e]

/-- A use makes an entry the most recently used. DEDUCED (log entry 105). -/
def cacheTouch (c : List CacheEnt) (key stamp : Nat) (e : BitVec 1) : List CacheEnt :=
  c.map fun x => if x.key == key && x.epoch == e then { x with stamp := stamp } else x

/-- A lookup at the directory is already on its way. -/
def Fabric.asked (f : Fabric) (p : Nat) (u : Purpose) : Bool :=
  let n := f.ni p
  n.ini.ort.any (fun o => o.purpose == u) || (n.inj.queues.get 103 []).any fun o => o.purpose == some u

/-- A lookup request to the directory service of the NI's die (04 R93; 09 R211). DEDUCED (log entry 105). -/
def Fabric.lookup (f : Fabric) (p : Nat) (dom op : BitVec 6) (addr n : Nat) (u : Purpose) : Fabric :=
  if f.asked p u then f
  else
    let (t, f1) := f.takeTag p
    let h : Header := { cls := 2, kind := 0, op := op, domain := dom, dest := f.destOf p (dirPort (dieOfPort p))
                        src := f.srcOf p, tag := t, addr := BitVec.ofNat 48 addr, bcnt := BitVec.ofNat 13 n }
    f1.enqueue p 103 { pkt := { hdr := h }, purpose := some u }

/-- The request for a group entry. -/
def Fabric.groupLookup (f : Fabric) (p : Nat) (dom op : BitVec 6) (g : Nat) : Fabric :=
  f.lookup p dom op (2 ^ 20 + 64 * g) 64 (.grp (BitVec.ofNat 12 g) f.epoch)

/-! ## Cutting (R212, R213; 08 R448) -/

/-- A run cut where its leaf side crosses a 4 KiB block. -/
def cutLeaf (r : Run) : List Run :=
  let room := 4096 - r.local_ % 4096
  if r.bytes ≤ room then [r]
  else [{ r with bytes := room },
    { r with addr := r.addr + BitVec.ofNat 64 room, local_ := r.local_ + room, bytes := r.bytes - room }]

/-- The runs of a multicast: source address, leaf address and bytes. -/
def mcRuns (d : BitVec 512) (t addr : Nat) : List Run :=
  let n := rowBytes d t
  let rows := tileRows d t
  let ns := List.range rows.length
  if dSpace d == 0 then
    (cutSegs 1 1 (joinSegs ((rows.zip ns).map fun e => ⟨e.1, addr + n * e.2, n, n⟩))).flatMap cutLeaf
  else
    (cutSegs 1 1 (joinSegs ((rows.zip ns).map fun e => ⟨addr + n * e.2, e.1, n, n⟩))).map fun r =>
      { r with addr := BitVec.ofNat 64 r.local_, local_ := r.addr.toNat }

/-! ## Issuing (R212) -/

/-- The MC_DATA of run i, before its mask is split. -/
def Fabric.mcPacket (f : Fabric) (p chan : Nat) (e : QEntry) (i : Nat) (r : Run) (data : Bytes) : OutPkt :=
  let ws := e.work.entry
  let reads := if dSpace e.work.src == 0 then ceilDiv e.work.runs.length 65536 else 0
  let h : Header :=
    { cls := 4, kind := 5, op := BitVec.ofNat 6 ocMcast, domain := e.work.dom, dmode := 2
      dest := BitVec.ofNat 28 (f.node p * 1024), src := f.srcOf p, group := BitVec.ofNat 12 (fld e.op 59 48)
      tag := e.work.tags.getD (reads + i / 65536) 0, seq := BitVec.ofNat 16 i
      addr := BitVec.ofNat 48 r.local_, bcnt := BitVec.ofNat 13 r.bytes
      len := BitVec.ofNat 6 (dataLen (r.local_ % 2 ^ 48) r.bytes), pmask := BitVec.ofNat 4 (grpPmask ws) }
  { pkt := { hdr := h, aux := BitVec.ofNat 256 (grpMask ws), body := data }
    purpose := some (.mcRun chan e.eid i), need := grpNleaf ws }

/-- The MC_DATA of a run whose data is at hand joins its channel's queue. -/
def Fabric.queueMcRun (f : Fabric) (p chan eid i : Nat) (data : Bytes) : Fabric :=
  match f.entry (.tsq p chan) eid with
  | some e => match e.work.runs[i]? with
    | some r => f.enqueue p chan (f.mcPacket p chan e i r data)
    | none => f
  | none => f

/-- The op goes on with its group entry. -/
def Fabric.mcastGo (f : Fabric) (p chan eid : Nat) (ws : List Word) : Fabric :=
  let w : Seqr := .tsq p chan
  match f.entry w eid with
  | none => f
  | some e =>
    let f0 := f.updChan w fun c => { c with reason := if c.halted then 8 else 0 }
    let stop (st : Status) : Fabric := f0.finish w eid st (infoPort p 0)
    if !grpValid ws then stop .unreachable
    else if grpDomain ws != e.work.dom.toNat then stop .domainDeny
    else
      let n := e.work.runs.length
      let remote := dSpace e.work.src == 0
      let f1 := f0.updWork w eid fun k => { k with
        entry := ws, outstanding := n, toInject := n, wins := if remote then windowsOf k.runs else [] }
      let f2 := f1.takeTags p chan eid (ceilDiv n 65536 * (if remote then 2 else 1))
      if remote then
        (f2.updNi p fun x => { x with ini := { x.ini with walkQ := x.ini.walkQ ++ [(chan, eid, 0)] } }).updChan w
          fun c => { c with reason := 1 }
      else ((e.work.runs.zip (List.range n))).foldl (fun g x => g.queueMcRun p chan eid x.2 x.1.data) f2

/-- MCAST starts (07 R169; 09 R212; 18 R397). -/
def Fabric.startMcast (f : Fabric) (p chan : Nat) (e : QEntry) (data : Bytes) : Fabric :=
  let w : Seqr := .tsq p chan
  let bad := f.finish w e.eid .malformed (infoMal e.op 0x01 0)
  let t := fld e.op 83 60
  let g := fld e.op 59 48
  match f.slot p (fld e.op 95 90) with
  | none => bad
  | some d =>
    if dSpace d > 1 || !tileIn d t then bad
    else if f.crawl || f.beforeTurn1 then f.finish w e.eid .unreachable (infoPort p 0)
    else
      let runs := mcRuns d t (fld e.op 47 0)
      let cut := if dSpace d == 0 then numberWindows 0 [] runs else cutBytes data runs
      let f1 := f.updWork w e.eid fun k => { k with src := d, runs := cut }
      let n := f.ni p
      match cacheHit n.ini.gc g f.epoch with
      | some ws =>
        (f1.updNi p fun x => { x with ini := { x.ini with
          gc := cacheTouch x.ini.gc g (x.ini.stamp + 1) f.epoch, stamp := x.ini.stamp + 1 } }).mcastGo p chan e.eid ws
      | none =>
        let dom := ((f1.entry w e.eid).map fun x => x.work.dom).getD 0
        let f2 := (f1.updNi p fun x => { x with ini := { x.ini with gmiss := x.ini.gmiss + 1 } }).updWork w e.eid
          fun k => { k with missEp := f.epoch }
        (f2.groupLookup p dom (BitVec.ofNat 6 ocMcast) g).updChan w fun c => { c with reason := 7 }

/-- MCAST (R212). -/
def execMcast (port chan : Nat) (data : Bytes) (s : State) : Host.Outcome State Fault Refusal :=
  s.run fun f => f.startOp (.tsq port chan) ocMcast fun f e => f.startMcast port chan e data

/-- The key under which a received multicast waits for the entry of a group. -/
def relayKey (g : Nat) (ep : BitVec 1) : Nat := 4096 * (1 + ep.toNat) + g

/-- Ops that wait for a group's entry, looked up under an epoch. -/
def Fabric.mcWaiting (f : Fabric) (p g : Nat) (ep : BitVec 1) : List (Nat × Nat) :=
  (f.ni p).tsq.chans.flatMap fun c => (c.2.queue.filter fun e =>
    e.started && !e.aborted && opcOf e.op == ocMcast && e.work.entry.isEmpty && e.work.missEp == ep && fld e.op 59 48 == g).map
      fun e => (c.1, e.eid)

/-! ## Splitting (R214) -/

/-- Direction of a marked stop at NI p: 0 own column, 1 +X, 2 -X; a tie goes in +X. -/
def Fabric.mcDir (f : Fabric) (p t : Nat) : Nat :=
  match f.srtDir p t with
  | 3 => 1
  | d => d

/-- The stops of a mask that a copy of each direction carries, as (direction, mask). -/
def Fabric.mcSplit (f : Fabric) (p dom : Nat) (mask : Nat) : List (Nat × Nat) :=
  let ok := (bitsSet 256 mask).filter fun t => f.srtValid p t && f.srtPermit p t dom
  ([1, 2, 0].map fun d => (d, ((ok.filter fun t => f.mcDir p t == d).map fun t => 2 ^ t).sum)).filter fun x => x.2 != 0

/-- Stops removed from the mask: those not reachable, and those the domain may not reach. -/
def Fabric.mcRemoved (f : Fabric) (p dom mask : Nat) : Nat × Nat :=
  let ts := bitsSet 256 mask
  ((ts.filter fun t => !f.srtValid p t).length, (ts.filter fun t => f.srtValid p t && !f.srtPermit p t dom).length)

/-! ## Counting (R222, R223) -/

/-- What one answer, or the source itself, adds to a run. -/
def OrtEntry.count (o : OrtEntry) (st : Status) (nack nfenced : Nat) (low : BitVec 26) (info : BitVec 48) : OrtEntry :=
  let o1 := { o with nack := o.nack + nack, nfenced := o.nfenced + nfenced
                     lowfenced := if low.toNat < o.lowfenced.toNat then low else o.lowfenced }
  if statusRank st < statusRank o.st then { o1 with st := st, info := info } else o1

/-- The run is answered in full. -/
def OrtEntry.counted (o : OrtEntry) : Bool := o.nack ≥ o.need && o.fwdNeed == 0 && o.local_ == 0

/-- A run of a multicast op ends. -/
def Fabric.settleMcRun (f : Fabric) (p chan eid i : Nat) (st : Status) (info : BitVec 48) (nf : Nat) (low : BitVec 26) : Fabric :=
  let w : Seqr := .tsq p chan
  let f1 := f.updWork w eid fun k =>
    let b := ((k.runs[i]?).map (·.bytes)).getD 0
    let k1 := { (k.noteSeq st info i) with
      committed := k.committed + (if st == .ok || st == .partPoison then b else 0)
      nfenced := k.nfenced + nf, lowfenced := if low.toNat < k.lowfenced.toNat then low else k.lowfenced }
    if k1.st == .fenced then
      { k1 with info := BitVec.ofNat 48 (k1.nfenced % 2 ^ 16 * 2 ^ 32 + k1.lowfenced.toNat) } else k1
  f1.settled w eid .ok 0

/-- A relayed run ends: one MC_ACK for the original (R224). -/
def Fabric.settleRelay (f : Fabric) (p : Nat) (o : OrtEntry) : Fabric :=
  match takeFirst (fun x => x.1 == o.tag.toNat) (f.ni p).gw.relays with
  | none => f
  | some ((_, r), rest) =>
    let a : Packet := { hdr := answerHdr r.hdr 6 o.st (f.node p) p, aux := mcAckAux o.nack o.nfenced o.lowfenced }
    (f.updNi p fun n => { n with gw := { n.gw with relays := rest } }).toTransport p a

/-- A multicast entry of the Outstanding Request Table changes; a run answered in full completes. -/
def Fabric.updMc (f : Fabric) (p : Nat) (tag : BitVec 12) (seq : BitVec 16) (g : OrtEntry → OrtEntry) : Fabric :=
  let is (o : OrtEntry) : Bool := o.tag == tag && o.seq == seq && !o.red && o.req.kind == 5
  match takeFirst is (f.ni p).ini.ort with
  | none => f
  | some (o, rest) =>
    let o1 := g o
    if !o1.counted then f.updNi p fun n => { n with ini := { n.ini with ort := n.ini.ort.map fun x => if is x then g x else x } }
    else
      let f1 := f.updNi p fun n => { n with ini := { n.ini with ort := rest, pool := n.ini.pool - o1.pool } }
      let f2 := if o1.limit = 0 then f1 else f1.niLat p 0 ((f.time.fcc - o1.since) / f.unit)
      match o1.purpose with
      | .mcRun c e i => f2.settleMcRun p c e i o1.st o1.info o1.nfenced o1.lowfenced
      | _ => f2.settleRelay p o1

/-! ## A run at the head of its queue is split (R214) -/

/-- The copies of a run that go onto links, local first, then one for each remote entry. -/
def Fabric.mcCopies (f : Fabric) (p : Nat) (o : OutPkt) (ws : List Word) : List OutPkt :=
  let h := o.pkt.hdr
  let near := (f.mcSplit p h.domain.toNat o.pkt.aux.toNat).map fun x =>
    { o with resolved := true, injDir := some x.1, pkt := { o.pkt with aux := BitVec.ofNat 256 x.2 } }
  let far := (if o.purpose == some .mcRelay then [] else grpRemote ws).map fun r =>
    { o with pkt := { o.pkt with hdr := { h with
        dest := BitVec.ofNat 28 (r.1 * 1024), group := BitVec.ofNat 12 r.2, pmask := 8 } } }
  near ++ far

/-- The last copy of a run has been injected or refused: the op no longer waits for it, and a relay
releases the end-to-end credit of the packet it received (R224). -/
def Fabric.mcAllGone (f : Fabric) (p : Nat) (o : OutPkt) : Fabric :=
  match o.purpose with
  | some (.mcRun c e _) => (f.updWork (.tsq p c) e Work.oneGone).checkIssued (.tsq p c) e
  | some .mcRelay => match (f.ni p).gw.relays.find? fun x => x.1 == o.pkt.hdr.tag.toNat with
    | some (_, r) => f.gwRelease p r
    | none => f
  | _ => f

/-- The group entry that a run's op has read. -/
def Fabric.runEntry (f : Fabric) (p : Nat) (o : OutPkt) : List Word :=
  match o.purpose with
  | some (.mcRun c e _) => ((f.entry (.tsq p c) e).map fun x => x.work.entry).getD []
  | _ => []

/-- The Answer Pool charge of a run: T1 only (13 R301). -/
def Fabric.runPool (f : Fabric) (p : Nat) (o : OutPkt) : Nat :=
  if f.variant = .t1 && f.kind p == 1 then mcPool (f.runEntry p o) else 0

/-- The run's entry is opened and its copies take its place at the head of the queue. -/
def Fabric.expandMc (f : Fabric) (p q : Nat) (o : OutPkt) (rest : List OutPkt) : Fabric :=
  let u := o.purpose.getD .mcRelay
  let h := o.pkt.hdr
  let ws := f.runEntry p o
  let cs := f.mcCopies p o ws
  let (gone, denied) := f.mcRemoved p h.domain.toNat o.pkt.aux.toNat
  let pm := popcountN 4 h.pmask.toNat
  let base : OrtEntry :=
    { tag := h.tag, seq := h.seq, dom := h.domain, purpose := u, req := h, since := f.time.fcc, limit := 0
      need := o.need, fwdNeed := (cs.filter fun c => !c.resolved).length, local_ := cs.length
      pool := f.runPool p o }
  let e1 := if gone > 0 then base.count .unreachable (gone * pm) 0 (BitVec.allOnes 26) (infoPort p h.seq) else base
  let e2 := if denied > 0 then e1.count .domainDeny (denied * pm) 0 (BitVec.allOnes 26) (infoPort p h.seq) else e1
  let f1 := f.setInjQ p q (cs ++ rest)
  let f2 := f1.updNi p fun n => { n with ini := { n.ini with ort := n.ini.ort ++ [e2], pool := n.ini.pool + e2.pool } }
  if cs.isEmpty then
    (f2.mcAllGone p o).updMc p h.tag h.seq id
  else f2

/-- One copy of a run has been injected or refused: with the last one the run no longer waits. -/
def Fabric.mcCopyGone (f : Fabric) (p : Nat) (o : OutPkt) (g : OrtEntry → OrtEntry) : Fabric :=
  let h := o.pkt.hdr
  let last := ((f.ni p).ini.ort.find? fun x => x.tag == h.tag && x.seq == h.seq && x.req.kind == 5).map (·.local_) == some 1
  let f1 := if last then f.mcAllGone p o else f
  f1.updMc p h.tag h.seq fun x => g { x with local_ := x.local_ - 1 }

/-- A copy refused at injection counts as answered with the refusal (R214). -/
def Fabric.mcRefuse (f : Fabric) (p : Nat) (o : OutPkt) (st : Status) : Fabric :=
  let h := o.pkt.hdr
  f.mcCopyGone p o fun x =>
    if o.resolved then
      x.count st (popcountN 256 o.pkt.aux.toNat * popcountN 4 h.pmask.toNat) 0 (BitVec.allOnes 26) (infoPort p h.seq)
    else { (x.count st 0 0 (BitVec.allOnes 26) (infoPort p h.seq)) with fwdNeed := x.fwdNeed - 1 }

/-! ## Source reads (R213, R237) -/

/-- A source read of an MCAST ends: its data is multicast, or the run ends with its status. -/
def Fabric.settleMcRead (f : Fabric) (p chan eid i : Nat) (st : Status) (info : BitVec 48) (data : Bytes) : Fabric :=
  let w : Seqr := .tsq p chan
  let f1 := f.updWork w eid fun k =>
    let runs := k.runs.modify i fun x => { x with done := true, st := st }
    let win := ((k.runs[i]?).map (·.win)).getD 0
    let last := !runs.any fun x => x.win == win && !x.done
    { k with runs := runs, wins := if last then k.wins.modify win fun x => { x with locks := [] } else k.wins }
  match f1.entry w eid with
  | none => f1
  | some e =>
    if e.aborted then f1.settled w eid .ok 0
    else if st == .ok then f1.queueMcRun p chan eid i data
    else ((f1.updWork w eid fun k => (k.noteSeq st info i).oneGone).settled w eid .ok 0).checkIssued w eid

end Sys2Proof.Machine
end

