-- ==== Sys2Proof/Machine/RduMath.lean ====
section
/-! DEFINITION. The arithmetic of reductions: anchors, anchored partials, their merge and the result;
the other operations (10 R243-R253). -/

namespace Sys2Proof.Machine

/-! ## Formats as reductions see them (R243) -/

/-- The precision m. -/
def redM (cfmt : Nat) : Nat :=
  match cfmt with
  | 0 => 53 | 1 => 24 | 2 => 11 | 3 => 8 | 4 => 3 | 5 => 4 | 6 => 4 | 7 => 3 | 8 => 4 | 9 => 2
  | 10 => 7 | 11 => 8 | 12 => 16 | 13 => 32 | 14 => 64 | _ => 11

/-- The guard bits in effect: 0 selects the default; integer formats have none. -/
def redG (cfmt guard : Nat) : Nat :=
  if isIntFmt cfmt then 0 else if guard != 0 then guard
  else match cfmt with
    | 0 => 24 | 1 => 16 | _ => 8

/-- The top exponent T of an anchor byte. -/
def redT (cfmt a : Nat) : Int :=
  match cfmt with
  | 0 => 8 * (a : Int) - 1015
  | 1 => (a : Int) - 127
  | 2 => (a : Int) - 15
  | 3 => (a : Int) - 127
  | 4 => (a : Int) - 15
  | 5 => (a : Int) - 7
  | 6 => (a : Int) - 119
  | 7 => (a : Int) - 123
  | 8 => (a : Int) - 125
  | 9 => (a : Int) - 125
  | _ => (a : Int) - 126

/-- Partial width in bits of `PW`. -/
def pwBits (pw : Nat) : Nat := match pw with | 1 => 32 | 2 => 64 | _ => 128

/-- ceil(log2 n). -/
def clog2 (n : Nat) : Nat := if n ≤ 1 then 0 else (n - 1).log2 + 1

/-- The headroom h of N contributions (R244). -/
def redH (n : Nat) : Nat := max 3 (clog2 n)

/-- Contributions encoded in 17 bits: 0 is 65,536. -/
def countOf (n : Nat) : Nat := if n == 0 then 65536 else n

/-- The combinations a tree accepts (R252). -/
def redCombo (rop cfmt rfmt : Nat) : Bool :=
  match rop with
  | 0 => ((cfmt ≤ 10 || cfmt == 15) && rfmt ≤ 3) || (isIntFmt cfmt && isIntFmt rfmt)
  | 1 => cfmt ≤ 3 && rfmt ≤ 3
  | 2 => (cfmt ≤ 5 || isIntFmt cfmt) && rfmt == cfmt
  | 3 => (cfmt ≤ 5 || isIntFmt cfmt) && rfmt == cfmt
  | 4 => isIntFmt cfmt && rfmt == cfmt
  | 5 => isIntFmt cfmt && rfmt == cfmt
  | 6 => isIntFmt cfmt && rfmt == cfmt
  | _ => false

/-- The chunk size C (R234, R252). -/
def redChunk (rop cfmt pw : Nat) : Nat :=
  if rop == 0 then min 2048 (32768 / pwBits pw) else min 2048 (4096 / fmtSize cfmt)

/-- The partial width suffices (R244). -/
def redWide (cfmt guard n pw : Nat) : Bool :=
  pw != 0 && redM cfmt + redG cfmt guard + redH n + 1 ≤ pwBits pw

/-! ## Anchors (R243) -/

/-- The anchor code of the bits of one floating-point element. -/
def anchorElem (cfmt n : Nat) : Nat :=
  match floatFmt cfmt with
  | some f =>
    match f.decode n with
    | .fin _ m _ =>
      if m == 0 then 0
      else
        let e := max 1 (n / 2 ^ f.mb % 2 ^ f.eb)
        if cfmt == 0 then (e - 1) / 8 else e
    | _ => 0
  | none => 0

/-- The anchor of a block given as bytes: 32 elements, or one block of a block format. -/
def anchorBlock (cfmt : Nat) (bs : Bytes) : Nat :=
  if isBlockFmt cfmt then
    if (decodeBlock cfmt bs).any fun v => match v with | .fin _ m _ => m != 0 | _ => false
    then (bs.headD 0).toNat else 0
  else
    let sz := fmtSize cfmt
    (List.range 32).foldl (fun a i => max a (anchorElem cfmt (ofBytesLE ((bs.drop (sz * i)).take sz)))) 0

/-- Bytes of 32 elements. -/
def blockBytes (cfmt : Nat) : Nat := 32 / fmtElems cfmt * fmtSize cfmt

/-- The anchors of a contribution, one byte a block. -/
def anchorsOf (cfmt : Nat) (bs : Bytes) : Bytes :=
  (List.range (bs.length / blockBytes cfmt)).map fun j =>
    BitVec.ofNat 8 (anchorBlock cfmt ((bs.drop (blockBytes cfmt * j)).take (blockBytes cfmt)))

/-! ## Anchored partials (R245, R246) -/

/-- Z of a partial width. -/
def redZ (p : Nat) : Int := 2 ^ (p - 1)

/-- The exponent of u. -/
def redU (cfmt guard a : Nat) : Int := redT cfmt a - ((redM cfmt : Int) - 1) - redG cfmt guard

/-- An element as a partial (R245). -/
def quantise (cfmt guard p a : Nat) (v : Val) : Int :=
  let z := redZ p
  match v with
  | .nan => -z
  | .inf s => if s then -(z - 1) else z - 1
  | .fin s m e =>
    if isIntFmt cfmt then (if s then -((m * 2 ^ e.toNat : Nat) : Int) else (m * 2 ^ e.toNat : Nat))
    else if !magLt m e 1 (redT cfmt a + 1) then (if s then -(z - 2) else z - 2)
    else
      let n : Int := roundScaled 0 m (e - redU cfmt guard a)
      if s then -n else n

/-- The flags of a partial: NaN, +Inf, -Inf, +SAT, -SAT. -/
structure RedFlags where
  nan : Bool := false
  pinf : Bool := false
  ninf : Bool := false
  psat : Bool := false
  nsat : Bool := false
  deriving DecidableEq, Repr

def redFlags (p : Nat) (s : Int) : RedFlags :=
  let z := redZ p
  if s == -z then { nan := true }
  else if s == z - 1 then { pinf := true }
  else if s == -(z - 1) then { ninf := true }
  else if s == z - 2 then { psat := true }
  else if s == -(z - 2) then { nsat := true }
  else if s == z - 3 then { psat := true, nsat := true }
  else {}

def RedFlags.or (a b : RedFlags) : RedFlags :=
  { nan := a.nan || b.nan, pinf := a.pinf || b.pinf, ninf := a.ninf || b.ninf
    psat := a.psat || b.psat, nsat := a.nsat || b.nsat }

/-- A partial that no code stands for. -/
def redFinite (p : Nat) (s : Int) : Bool := redFlags p s == {}

/-- The merge of two partials (R246). -/
def redMerge (p : Nat) (a b : Int) : Int :=
  if redFinite p a && redFinite p b then a + b
  else
    let f := (redFlags p a).or (redFlags p b)
    let z := redZ p
    if f.nan || (f.pinf && f.ninf) then -z
    else if f.pinf then z - 1
    else if f.ninf then -(z - 1)
    else if f.psat && f.nsat then z - 3
    else if f.psat then z - 2
    else -(z - 2)

/-- The bits of a result element in `RFMT`, and whether it saturated (R248). -/
def redResult (cfmt rfmt guard p a : Nat) (s : Int) : Nat × Bool :=
  if isIntFmt rfmt then
    let w := 8 * fmtSize rfmt
    let hi : Int := 2 ^ (w - 1) - 1
    let c := max (-(2 ^ (w - 1) : Int)) (min hi s)
    ((c % 2 ^ w).toNat, c != s)
  else match floatFmt rfmt with
  | none => (0, false)
  | some f =>
    let fl := redFlags p s
    if fl.nan then (f.nanBits, false)
    else if fl.pinf then (f.infBits false, false)
    else if fl.ninf then (f.infBits true, false)
    else if fl.psat && fl.nsat then (f.nanBits, true)
    else if fl.psat then (f.maxBits false, true)
    else if fl.nsat then (f.maxBits true, true)
    else
      -- a zero result is +0 (11 R267, R268)
      let r := f.encode 0 false (valOfInt s (redU cfmt guard a))
      (match f.decode r with | .fin _ 0 _ => 0 | _ => r, false)

/-! ## Other operations (R252, R253) -/

/-- Exact sum of two values; an exact zero is +0 unless both are -0. DEDUCED (log entry 100). -/
def Val.add (a b : Val) : Val :=
  match a, b with
  | .nan, _ => .nan
  | _, .nan => .nan
  | .inf s, .inf t => if s == t then .inf s else .nan
  | .inf s, _ => .inf s
  | _, .inf t => .inf t
  | .fin s m e, .fin t n k =>
    let b := min e k
    let x : Int := (m * 2 ^ (e - b).toNat : Nat)
    let y : Int := (n * 2 ^ (k - b).toNat : Nat)
    let r := (if s then -x else x) + (if t then -y else y)
    if r == 0 then .fin (s && t) 0 0 else valOfInt r b

/-- Whether a is greater than b: by value, +0 above -0. -/
def Val.gt (a b : Val) : Bool :=
  match a, b with
  | .inf s, .inf t => !s && t
  | .inf s, _ => !s
  | _, .inf t => t
  | .fin s m e, .fin t n k =>
    let b := min e k
    let x : Int := (m * 2 ^ (e - b).toNat : Nat)
    let y : Int := (n * 2 ^ (k - b).toNat : Nat)
    let u := if s then -x else x
    let v := if t then -y else y
    if u == v then !s && t else v < u
  | _, _ => false

/-- The merge of two native elements given as bits. -/
def redNative (rop cfmt : Nat) (a b : Nat) : Nat :=
  let w := 8 * fmtSize cfmt
  match rop with
  | 4 => Nat.land a b
  | 5 => Nat.lor a b
  | 6 => Nat.xor a b
  | _ =>
    match floatFmt cfmt with
    | some f =>
      let x := f.decode a
      let y := f.decode b
      if rop == 1 then f.encode 0 false (x.add y)
      else if x == .nan || y == .nan then f.nanBits
      else if rop == 2 then (if y.gt x then b else a)
      else (if x.gt y then b else a)
    | none =>
      let x := intOf w a
      let y := intOf w b
      if rop == 2 then (if x < y then b else a) else (if y < x then b else a)

/-- A native element as the root writes it: `ARRIVAL` rounds once more (R253); a NaN of `MAX` or `MIN` is
canonical (11 R268). -/
def redNativeResult (rop cfmt rfmt a : Nat) : Nat :=
  if rop == 1 then
    match floatFmt cfmt, floatFmt rfmt with
    | some f, some g => g.encode 0 false (f.decode a)
    | _, _ => a
  else if rop == 2 || rop == 3 then
    match floatFmt cfmt with
    | some f => if f.decode a == .nan then f.nanBits else a
    | none => a
  else a

/-! ## Packets as elements -/

/-- Elements of a native body: as partials for an anchored `SUM`, else as bits. -/
def nativeElems (rop cfmt guard p : Nat) (anchors : Bytes) (n : Nat) (bs : Bytes) : List Int :=
  if rop == 0 then
    let vs := (decodeUnits cfmt (n / fmtElems cfmt) bs)
    (vs.zip (List.range vs.length)).map fun e =>
      quantise cfmt guard p ((anchors.getD (e.2 / 32) 0).toNat) e.1
  else (List.range n).map fun i => (ofBytesLE ((bs.drop (fmtSize cfmt * i)).take (fmtSize cfmt)) : Int)

/-- Elements of a partial body of P bits. -/
def partialElems (p n : Nat) (bs : Bytes) : List Int :=
  (List.range n).map fun i => intOf p (ofBytesLE ((bs.drop (p / 8 * i)).take (p / 8)))

/-- The body of a partial. -/
def partialBytes (p : Nat) (es : List Int) : Bytes :=
  es.flatMap fun s => toBytesLE (s % 2 ^ p).toNat (p / 8)

end Sys2Proof.Machine
end

