-- ==== Sys2Proof/Machine/Digest.lean ====
section
/-! DEFINITION. SHA-384 and the Configuration Digest message (12 R288, R289). -/

namespace Sys2Proof.Machine

/-! ## SHA-384 (FIPS 180-4) -/

def shaK : List (BitVec 64) :=
  [0x428a2f98d728ae22, 0x7137449123ef65cd, 0xb5c0fbcfec4d3b2f, 0xe9b5dba58189dbbc] ++
  [0x3956c25bf348b538, 0x59f111f1b605d019, 0x923f82a4af194f9b, 0xab1c5ed5da6d8118] ++
  [0xd807aa98a3030242, 0x12835b0145706fbe, 0x243185be4ee4b28c, 0x550c7dc3d5ffb4e2] ++
  [0x72be5d74f27b896f, 0x80deb1fe3b1696b1, 0x9bdc06a725c71235, 0xc19bf174cf692694] ++
  [0xe49b69c19ef14ad2, 0xefbe4786384f25e3, 0x0fc19dc68b8cd5b5, 0x240ca1cc77ac9c65] ++
  [0x2de92c6f592b0275, 0x4a7484aa6ea6e483, 0x5cb0a9dcbd41fbd4, 0x76f988da831153b5] ++
  [0x983e5152ee66dfab, 0xa831c66d2db43210, 0xb00327c898fb213f, 0xbf597fc7beef0ee4] ++
  [0xc6e00bf33da88fc2, 0xd5a79147930aa725, 0x06ca6351e003826f, 0x142929670a0e6e70] ++
  [0x27b70a8546d22ffc, 0x2e1b21385c26c926, 0x4d2c6dfc5ac42aed, 0x53380d139d95b3df] ++
  [0x650a73548baf63de, 0x766a0abb3c77b2a8, 0x81c2c92e47edaee6, 0x92722c851482353b] ++
  [0xa2bfe8a14cf10364, 0xa81a664bbc423001, 0xc24b8b70d0f89791, 0xc76c51a30654be30] ++
  [0xd192e819d6ef5218, 0xd69906245565a910, 0xf40e35855771202a, 0x106aa07032bbd1b8] ++
  [0x19a4c116b8d2d0c8, 0x1e376c085141ab53, 0x2748774cdf8eeb99, 0x34b0bcb5e19b48a8] ++
  [0x391c0cb3c5c95a63, 0x4ed8aa4ae3418acb, 0x5b9cca4f7763e373, 0x682e6ff3d6b2b8a3] ++
  [0x748f82ee5defb2fc, 0x78a5636f43172f60, 0x84c87814a1f0ab72, 0x8cc702081a6439ec] ++
  [0x90befffa23631e28, 0xa4506cebde82bde9, 0xbef9a3f7b2c67915, 0xc67178f2e372532b] ++
  [0xca273eceea26619c, 0xd186b8c721c0c207, 0xeada7dd6cde0eb1e, 0xf57d4f7fee6ed178] ++
  [0x06f067aa72176fba, 0x0a637dc5a2c898a6, 0x113f9804bef90dae, 0x1b710b35131c471b] ++
  [0x28db77f523047d84, 0x32caab7b40c72493, 0x3c9ebe0a15c9bebc, 0x431d67c49c100d4c] ++
  [0x4cc5d4becb3e42b6, 0x597f299cfc657e2a, 0x5fcb6fab3ad6faec, 0x6c44198c4a475817]

def shaH0 : List (BitVec 64) :=
  [0xcbbb9d5dc1059ed8, 0x629a292a367cd507, 0x9159015a3070dd17, 0x152fecd8f70e5939] ++
  [0x67332667ffc00b31, 0x8eb44a8768581511, 0xdb0c2e0d64f98fa7, 0x47b5481dbefa4fa4]

def bigS0 (x : BitVec 64) : BitVec 64 := x.rotateRight 28 ^^^ x.rotateRight 34 ^^^ x.rotateRight 39
def bigS1 (x : BitVec 64) : BitVec 64 := x.rotateRight 14 ^^^ x.rotateRight 18 ^^^ x.rotateRight 41
def smallS0 (x : BitVec 64) : BitVec 64 := x.rotateRight 1 ^^^ x.rotateRight 8 ^^^ (x >>> 7)
def smallS1 (x : BitVec 64) : BitVec 64 := x.rotateRight 19 ^^^ x.rotateRight 61 ^^^ (x >>> 6)

/-- The message schedule, newest word first. -/
def shaExtend : Nat → List (BitVec 64) → List (BitVec 64)
  | 0, w => w
  | n + 1, w =>
    shaExtend n ((smallS1 (w.getD 1 0) + w.getD 6 0 + smallS0 (w.getD 14 0) + w.getD 15 0) :: w)

/-- One round on (a, b, c, d, e, f, g, h). -/
def shaRound (v : List (BitVec 64)) (kw : BitVec 64) : List (BitVec 64) :=
  match v with
  | [a, b, c, d, e, f, g, h] =>
    let t1 := h + bigS1 e + ((e &&& f) ^^^ (~~~e &&& g)) + kw
    let t2 := bigS0 a + ((a &&& b) ^^^ (a &&& c) ^^^ (b &&& c))
    [t1 + t2, a, b, c, d + t1, e, f, g]
  | v => v

/-- One 128-byte block. -/
def shaBlock (h : List (BitVec 64)) (ws : List (BitVec 64)) : List (BitVec 64) :=
  let w := (shaExtend 64 ws.reverse).reverse
  let v := (List.zipWith (· + ·) shaK w).foldl shaRound h
  List.zipWith (· + ·) h v

/-- Big-endian 64-bit words of bytes. -/
def wordsBE : Nat → Bytes → List (BitVec 64)
  | 0, _ => []
  | n + 1, bs => BitVec.ofNat 64 (ofBytesLE (bs.take 8).reverse) :: wordsBE n (bs.drop 8)

def shaBlocks : Nat → Bytes → List (BitVec 64) → List (BitVec 64)
  | 0, _, h => h
  | n + 1, bs, h => shaBlocks n (bs.drop 128) (shaBlock h (wordsBE 16 (bs.take 128)))

/-- The padded message. -/
def shaPad (m : Bytes) : Bytes :=
  let z := (239 - m.length % 128) % 128
  m ++ [0x80] ++ List.replicate z 0 ++ toBytesBE (8 * m.length) 16

/-- SHA-384 as twelve 32-bit words, most significant first. -/
def sha384 (m : Bytes) : List Word :=
  let p := shaPad m
  ((shaBlocks (p.length / 128) p shaH0).take 6).flatMap fun w => [w.extractLsb' 32 32, w.extractLsb' 0 32]

/-! ## The message (R289) -/

/-- A record: TID, UNIT, INDEX, WORD, VALUE, big-endian. -/
def record (tid unit index word value : Nat) : Bytes :=
  toBytesBE tid 1 ++ toBytesBE unit 2 ++ toBytesBE index 2 ++ toBytesBE word 1 ++ toBytesBE value 4

/-- A record of a word read, absent where the word is 0. -/
def record0 (tid unit index word value : Nat) : Bytes :=
  if value = 0 then [] else record tid unit index word value

/-- The listed words of a table in a store. -/
def tableWords (m : WMap) (table : Nat) : List (Nat × Nat) :=
  (m.filter fun e => e.1 / 2 ^ 24 == table).map fun e => (e.1 % 2 ^ 24, e.2.toNat)

/-- Every port with an NI. -/
def Fabric.niPorts (f : Fabric) : List Nat := f.portIds.filter fun p => f.kind p != 0

/-- `STP_PORT_p` with `REFUSED` as 0 (R292). -/
def StopPort.word (x : StopPort) : Nat :=
  let pw : Nat := match x.pwr with | .on => 0 | .isolating => 1 | .off => 2 | .waking => 3
  let st : Nat := if pw ≥ 2 then 2 else if x.fence then 1 else 0
  st * 2 ^ 30 + pw * 2 ^ 28 + b2n x.fence * 2 ^ 27

/-- The configuration message, header record first, records in ascending order. -/
def Fabric.digestMsg (f : Fabric) : Bytes :=
  let e := f.epoch
  let ports := f.niPorts
  let core := ports.filter fun p => f.kind p == 1
  let perPort (tid table div keep : Nat) : Bytes := ports.flatMap fun p =>
    (tableWords ((f.ni p).cfg.ep e) table).flatMap fun w =>
      if w.1 < keep then record0 tid p (w.1 / div) (w.1 % div) w.2 else []
  let cap := f.capability fmuPort
  record 0x00 0xFFFF f.fmu.turn.tseq.toNat e.toNat (cap / 2 ^ 32 % 2 ^ 32) ++
  perPort 0x01 0 3 768 ++
  perPort 0x02 1 1 16 ++
  (f.stopIds.flatMap fun s => (tableWords ((f.stopU s).cfg.ep e) 0).flatMap fun w => record0 0x03 s w.1 0 w.2) ++
  ((tableWords ((f.ni (dirPort 0)).cfg.ep e) 5).flatMap fun w => record0 0x04 0 w.1 0 w.2) ++
  ((tableWords ((f.ni (dirPort 0)).cfg.ep e) 6).flatMap fun w => record0 0x05 0 (w.1 / 16) (w.1 % 16) w.2) ++
  (f.stopIds.flatMap fun s => (tableWords (f.stopU s).cfg.tabs 2).flatMap fun w =>
    if w.1 % 8 == 0 then record0 0x06 s (w.1 / 8) 0 w.2 else []) ++
  (f.stopIds.flatMap fun s => (tableWords (f.stopU s).cfg.tabs 1).flatMap fun w => record0 0x07 s w.1 0 w.2) ++
  (core.flatMap fun p =>
    ((tableWords (f.ni p).cfg.tabs 3).flatMap fun w => record0 0x08 p w.1 0 w.2) ++
    (List.range 4).flatMap fun b => record0 0x08 p (512 + b) 0 (f.niReg p (0x340 + 4 * b)).toNat) ++
  ((ports.filter fun p => f.kind p == 1 || f.kind p == 3).flatMap fun p => (List.range 64).flatMap fun d =>
    (List.range 3).flatMap fun w => record0 0x09 p d w (f.niTab p 2 (4 * d + w)).toNat) ++
  (f.stopIds.flatMap fun s => (List.range 4).flatMap fun p => (List.range 2).flatMap fun h =>
    record0 0x0A s p h (f.stopReg s (0x300 + 8 * p + 4 * h)).toNat) ++
  (core.flatMap fun p => ((List.range 16).flatMap fun c => record0 0x0B p c 0 (f.niReg p (0x400 + 16 * c)).toNat) ++
    record0 0x0B p 16 0 (f.niReg p 0x100).toNat) ++
  (f.stopIds.flatMap fun s => (List.range 4).flatMap fun p => record0 0x0C s p 0 (f.sport (4 * s + p)).word) ++
  (ports.flatMap fun p => record0 0x0D p 0 0 (f.node p)) ++
  ((tableWords f.fmu.cfg.tabs 1).flatMap fun w => record0 0x0E 0xFFFF w.1 0 w.2) ++
  record0 0x0F 0xFFFF 0 0 (fld f.fmu.dfence 31 0) ++ record0 0x0F 0xFFFF 0 1 (fld f.fmu.dfence 63 32) ++
  record0 0x10 0xFFFF 0 0 (f.fmuReg 0x440).toNat ++
  ((ports.filter fun p => f.kind p == 3).flatMap fun p =>
    (tableWords (f.ni p).cfg.tabs 4).flatMap fun w => record0 0x11 p w.1 0 w.2) ++
  (core.flatMap fun p => record0 0x12 p 0 0 (f.niReg p 0x50C).toNat)

/-- An event that a digest is computed for: 0 turn, 1 fence, 2 power (R288). One computation runs;
events during it are coalesced into the next. DEDUCED (log entry 110). -/
def Fabric.digestEvent (f : Fabric) (cause : BitVec 2) : Fabric :=
  let r : DigRun := { cause := cause, fcc := f.time.fcc, tseq := f.fmu.turn.tseq, epoch := f.epoch
                      msg := f.digestMsg }
  f.updFmu fun m => { m with dig :=
    if m.dig.running.isSome then { m.dig with waiting := some r } else { m.dig with running := some r } }

end Sys2Proof.Machine
end

