-- ==== Sys2Proof/Machine/Staging.lean ====
section
/-! DEFINITION. The staged set: what STAGE may write and where it lands; orders of the service road
(15 R331-R334; 12 R282-R284; 13 R297; 20 R438, R439). -/

namespace Sys2Proof.Machine

/-! ## Which words are staged state -/

/-- The kind of a unit as `STAGE` names kinds: 1-8 an NI, 9 a stop, 10 the FMU (07 R157).
DEDUCED (log entry 18). -/
def Fabric.unitKind (f : Fabric) : UnitId → Nat
  | .ni p => f.kind p
  | .stop _ => 9
  | .fmu => 10
  | .slice _ => 0

/-- The ST bits of a table word, and whether the table is an epoch table; none where `STAGE` does
not write it (20 R438). -/
def stTabMask (v : Variant) (kind t idx : Nat) : Option (Bool × Nat) :=
  let gw := kind == 3 || kind == 8
  if kind == 9 then
    match t with
    | 0 => if idx < 256 then some (true, 0xE000000F) else none
    | 1 => if idx < 4096 then some (false, 0xF800FFFF) else none
    | 2 => if idx < 4096 && idx % 8 == 0 then some (false, 0xBF000FFF) else none
    | _ => none
  else if kind == 10 then
    match t with
    | 0 => if idx < 2048 then some (false, if idx % 2 == 0 then 0xFF000000 else 0xFFFF03FF) else none
    | 1 => if idx < 2048 then some (false, 0x8000003F) else none
    | _ => none
  else if 1 ≤ kind && kind ≤ 8 then
    match t with
    | 0 => if idx < 768 then some (true, if idx / 3 ≥ nStops v then 0 else if idx % 3 == 0 then 0xF0FF000F else 0xFFFFFFFF)
           else if idx < 832 then some (true, 0x800000FF) else none
    | 1 => if idx < 16 then some (true, 0x800003FF) else none
    | 2 => if (kind == 1 || gw) && idx < 256 && idx % 4 != 3 then
             some (false, if idx % 4 == 0 then 0x80FF0000 else 0xFFFFFFFF) else none
    | 3 => if kind == 1 && idx < 512 then some (false, 0xF800FFFF) else none
    | 4 => if gw && idx < 16 then some (false, 0xFFFFFFFF) else none
    | 5 => if kind == 4 && idx < 32768 then some (true, 0x800003FF) else none
    | 6 => if kind == 4 && idx < 65536 then
             some (true, if idx % 16 == 0 then 0x8F3F0000 else if idx % 16 ≤ 8 then 0xFFFFFFFF else 0x8FFFFFFF)
           else none
    | _ => none
  else none

/-- The ST bits of a register of a unit. DEDUCED (log entry 18). -/
def Fabric.stRegMask (f : Fabric) (u : UnitId) (off : Nat) : Option Nat :=
  match u with
  | .ni p => niMask f.variant (f.kind p) off
  | .stop _ => stopMask off
  | .fmu => fmuMask off
  | .slice _ => none

/-- The configuration store of a unit. -/
def Fabric.cfgOf (f : Fabric) : UnitId → CfgStore
  | .ni p => (f.ni p).cfg
  | .stop s => (f.stopU s).cfg
  | .fmu => f.fmu.cfg
  | .slice _ => {}
def Fabric.setCfg (f : Fabric) (u : UnitId) (c : CfgStore) : Fabric :=
  match u with
  | .ni p => f.updNi p fun n => { n with cfg := c }
  | .stop s => f.updStop s fun x => { x with cfg := c }
  | .fmu => f.updFmu fun m => { m with cfg := c }
  | .slice _ => f

/-- `NLEAF` of a staged group is computed when its entry is staged (09 R209). -/
def withNleaf (m : WMap) (g : Nat) : WMap :=
  let w (i : Nat) : Word := m.get (tkey 6 (16 * g + i)) 0
  let stops := ((List.range 8).map fun i => popcountN 32 (w (1 + i)).toNat).sum
  let n := stops * popcountN 4 (fld (w 0) 27 24)
  m.put (tkey 6 (16 * g)) ((w 0 &&& 0xFFFFF800) ||| BitVec.ofNat 32 (n % 2048))

/-- A staged write lands: a table's inactive epoch or staging copy, or a register's staging copy,
or its deferred copy while a turn is sealed (15 R333). -/
def Fabric.stageWrite (f : Fabric) (u : UnitId) (off : Nat) (data : Word) : Fabric :=
  let c := f.cfgOf u
  match stTable off with
  | some (t, idx) =>
    match stTabMask f.variant (f.unitKind u) t idx with
    | none => f
    | some (ep, m) =>
      let v := data &&& BitVec.ofNat 32 m
      let k := tkey t idx
      if ep then
        let put (x : WMap) : WMap :=
          let y := x.put k v
          if f.unitKind u == 4 && t == 6 then withNleaf y (idx / 16) else y
        f.setCfg u (if f.epoch = 0 then { c with ep1 := put c.ep1 } else { c with ep0 := put c.ep0 })
      else f.setCfg u { c with tabsStg := c.tabsStg.put k v }
  | none =>
    match f.stRegMask u off with
    | none => f
    | some m =>
      let v := data &&& BitVec.ofNat 32 m
      f.setCfg u (if f.fmu.turn.sealed_ then { c with regsDfr := c.regsDfr.put off v }
                  else { c with regsStg := c.regsStg.put off v })

/-- The units a `STAGE` addresses (07 R157). -/
def Fabric.stageUnits (f : Fabric) (o : Op) : List UnitId :=
  let k := stKind o
  let u := stUnit o
  let ports (q : Nat → Bool) : List UnitId := (f.portIds.filter fun p => f.kind p == k && q p).map .ni
  if k == 10 then [.fmu]
  else if k == 9 then
    match stScope o with
    | 0 => if u < nStops f.variant then [.stop u] else []
    | 1 => (f.stopIds.filter fun s => dieOfStop s == u / 64 % 4).map .stop
    | _ => f.stopIds.map .stop
  else if 1 ≤ k && k ≤ 8 then
    match stScope o with
    | 0 => ports fun p => p == u
    | 1 => ports fun p => dieOfPort p == u / 256
    | _ => ports fun _ => true
  else []

/-- The reason a `STAGE` is refused at its start (15 R332, R333; 18 R399). -/
def Fabric.stageReason (f : Fabric) (o : Op) : Option Nat :=
  let off := stOffset o
  match f.stageUnits o with
  | [] => some 0x09
  | u :: _ =>
    match stTable off with
    | some (t, idx) =>
      match stTabMask f.variant (stKind o) t idx with
      | none => some 0x08
      | some (ep, _) =>
        if f.fmu.turn.sealed_ || (ep && !f.fmu.turn.writable) || off / 2 ^ 24 % 2 == 1 then
          (if off / 2 ^ 24 % 2 == 1 then some 0x08 else some 0x07)
        else none
    | none =>
      if off ≥ 2 ^ 16 || (f.stRegMask u off).isNone then some 0x08
      else if u = .fmu && off == 0x80C && !bit (stData o) 31 && bit (f.fmuReg 0x80C) 31 then some 0x08
      else none

/-! ## Orders (13 R297; 12 R282-R284) -/

/-- DESIGN CHOICE (log entry 13). -/
def Fabric.addOrders (f : Fabric) (l : List (UnitId × Order)) : Fabric :=
  f.updFmu fun m => { m with road := { m.road with orders := m.road.orders ++ l } }

/-- A port that FENCEP cannot fence (12 R282). -/
def Fabric.fenceable (f : Fabric) (p : Nat) : Bool :=
  p < nPorts f.variant && (f.kind p == 1 || f.kind p == 2 || f.kind p == 3)

/-- The orders that set or clear the fence of a port: its stop and its NI. -/
def fencePortOrders (p : Nat) (on : Bool) : List (UnitId × Order) :=
  [(.stop (stopOfPort p), .fencePort p on), (.ni p, .fencePort p on)]

/-- The orders that set or clear a domain's fence: every Core NI and Gateway NI. -/
def Fabric.fenceDomOrders (f : Fabric) (d : Nat) (on : Bool) : List (UnitId × Order) :=
  (f.portIds.filter fun p => f.kind p == 1 || f.kind p == 3).map fun p => (.ni p, .fenceDom d on)

/-- A bit of a 64-bit map set or cleared. -/
def setBit64 (m : BitVec 64) (d : Nat) (on : Bool) : BitVec 64 :=
  if on then m ||| BitVec.ofNat 64 (2 ^ d) else m &&& ~~~BitVec.ofNat 64 (2 ^ d)

/-- The FMU's own record of the domain fence map. -/
def Fabric.recordDomFence (f : Fabric) (d : Nat) (on : Bool) : Fabric :=
  f.updFmu fun m => { m with dfence := setBit64 m.dfence d on }

/-- A unit applies an order. -/
def Fabric.applyOrder (f : Fabric) (u : UnitId) (o : Order) : Fabric :=
  match o, u with
  | .stage _ off data _, u => f.stageWrite u off.toNat data
  | .fencePort p on, .stop _ => f.updSport p fun x => { x with fence := on }
  | .fencePort p on, _ => f.updNi p fun n => { n with pwr := { n.pwr with fence := on } }
  | .fenceDom d on, .ni p => f.updNi p fun n => { n with pwr := { n.pwr with dfence := setBit64 n.pwr.dfence d on } }
  | _, _ => f

/-- Orders that MGT_OP_RECEIVE performs; tree writes and board gathers have commands of their own. -/
def Order.direct : Order → Bool
  | .stage .. => true
  | .fencePort .. => true
  | .fenceDom .. => true
  | _ => false

def Order.isFence : Order → Bool
  | .fencePort .. => true
  | .fenceDom .. => true
  | _ => false

/-- A fence order or its confirmation is still on its way. -/
def Fabric.fenceOpen (f : Fabric) : Bool :=
  (f.fmu.road.orders.any fun x => x.2.isFence) || (f.fmu.road.answers.any fun x => x.2.isFence)

/-- MGT_OP_RECEIVE (15 R332): the unit performs the oldest order sent to it and answers.
DESIGN CHOICE (log entry 13). -/
def execMgtOpReceive (unit : UnitId) (s : State) : Host.Outcome State Fault Refusal :=
  s.run fun f => f.when f.moving <|
    fun f =>
      -- one order is outstanding at a unit, which has one place for its answer (13 R297)
      if f.fmu.road.answers.any fun x => x.1 == unit && x.2.direct then f else
      match takeFirst (fun x => x.1 == unit && x.2.direct) f.fmu.road.orders with
      | none => f
      | some ((u, o), rest) =>
        (f.applyOrder u o).updFmu fun m => { m with road := { m.road with
          orders := rest, answers := m.road.answers ++ [(u, o)] } }

/-- MGT_RSP_RECEIVE (13 R297; 15 R332): a STAGE completes once every addressed unit has answered. -/
def execMgtRspReceive (unit : UnitId) (s : State) : Host.Outcome State Fault Refusal :=
  s.run fun f => f.when f.moving <|
    fun f =>
      match takeFirst (fun x => x.1 == unit && x.2.direct) f.fmu.road.answers with
      | none => f
      | some ((_, o), rest) =>
        let f1 := f.updFmu fun m => { m with road := { m.road with answers := rest } }
        match o with
        | .stage eid .. =>
          let f2 := f1.updWork .fmu eid fun k => { k with outstanding := k.outstanding - 1 }
          match f2.entry .fmu eid with
          | some e => if e.work.outstanding == 0 then f2.finish .fmu eid .ok 0 else f2
          | none => f2
        | _ => f1

/-! ## The stream's own ops -/

/-- A management op completes `MALFORMED` with a reason (15 R349). -/
def Fabric.refuseOp (f : Fabric) (e : QEntry) (reason : Nat) : Fabric :=
  f.finish .fmu e.eid .malformed (infoMal e.op 0x04 reason)

/-- How many STAGE ops are incomplete. -/
def Fabric.stagesOpen (f : Fabric) : Nat :=
  (f.fmu.chan.queue.filter fun e => opcOf e.op == ocStage).length

/-- A management op starts, unless the package is stopped and the op waits for resume (16 R368). -/
def Fabric.startMgmt (f : Fabric) (oc : Nat) (k : Fabric → QEntry → Fabric) : Fabric :=
  f.when f.moving fun f => f.startOp .fmu oc k

/-- STAGE (15 R332): at most 64 are incomplete at once. -/
def execStage (s : State) : Host.Outcome State Fault Refusal :=
  s.run fun f => f.when (f.stagesOpen < 64) fun f => f.startMgmt ocStage fun f e =>
    match f.stageReason e.op with
    | some r => f.refuseOp e r
    | none =>
      let us := f.stageUnits e.op
      let f1 := f.updTurn fun t => { t with checked := false }
      let f2 := f1.updEntry .fmu e.eid fun x =>
        { x with issued := true, work := { x.work with outstanding := us.length } }
      f2.addOrders (us.map fun u => (u, .stage e.eid (BitVec.ofNat 32 (stOffset e.op)) (stData e.op) e.op))

/-! ## FENCEP (12 R282-R284) -/

/-- The FENCEP at the head has the given target kind and action. -/
def Fabric.startFence (f : Fabric) (dom on : Bool) (k : Fabric → QEntry → Fabric) : Fabric :=
  match f.fmuSkip.head .fmu with
  | some e => if bit e.op 93 == dom && fld e.op 95 94 == b2n on then f.startMgmt ocFencep k else f
  | none => f

/-- DEDUCED (log entry 26). -/
def Fabric.fencePortOp (f : Fabric) (on : Bool) : Fabric :=
  f.startFence false on fun f e =>
    let p := fld e.op 89 80
    if f.fenceable p then f.addOrders (fencePortOrders p on) else f.refuseOp e 0x09

def Fabric.fenceDomOp (f : Fabric) (on : Bool) : Fabric :=
  f.startFence true on fun f e =>
    let d := fld e.op 79 74
    (f.recordDomFence d on).addOrders (f.fenceDomOrders d on)

/-- FENCE_PORT (12 R282). -/
def execFencePort (s : State) : Host.Outcome State Fault Refusal := s.run fun f => f.fencePortOp true
/-- OPEN_PORT (12 R282). -/
def execOpenPort (s : State) : Host.Outcome State Fault Refusal := s.run fun f => f.fencePortOp false
/-- FENCE_DOMAIN (12 R283). -/
def execFenceDomain (s : State) : Host.Outcome State Fault Refusal := s.run fun f => f.fenceDomOp true
/-- OPEN_DOMAIN (12 R283). -/
def execOpenDomain (s : State) : Host.Outcome State Fault Refusal := s.run fun f => f.fenceDomOp false

/-- FENCEP_COMPLETE (12 R284, R288): every unit changed has confirmed. DEDUCED (log entry 109). -/
def execFencepComplete (s : State) : Host.Outcome State Fault Refusal :=
  s.run fun f => f.when (f.moving && !f.fenceOpen) <|
    fun f =>
      match f.running .fmu ocFencep with
      | some e => (f.finish .fmu e.eid .ok 0).digestEvent 1
      | none =>
        if f.fmu.road.contain then
          (f.updFmu fun m => { m with road := { m.road with contain := false } }).digestEvent 1
        else f

/-! ## Staged actions (17 R372; 12 R285; 16 R366) -/

/-- A staged action joins the list; while a turn is sealed the staged set is closed.
DEDUCED (log entries 41, 144). -/
def Fabric.stageAction (f : Fabric) (e : QEntry) (a : Action) : Fabric :=
  if f.fmu.turn.sealed_ then f.refuseOp e 0x07
  else
    let f1 := f.updFmu fun m => { m with
      turn := { m.turn with checked := false }, drain := { m.drain with actions := m.drain.actions ++ [a] } }
    f1.finish .fmu e.eid .ok 0

/-- The SPARE at the head has the given kind and, for a bypass, the given bit of SPEC. A reserved
kind completes `MALFORMED`; its reason is not stated: a free value.
DEDUCED (log entry 98); DESIGN CHOICE (log entry 25). -/
def Fabric.spareOp (f : Fabric) (kind : Nat) (bypass : Option Bool) : Fabric :=
  match f.fmuSkip.head .fmu with
  | none => f
  | some e =>
    let k := fld e.op 95 92
    let reserved := k ≥ 7
    let here := k == kind && (match bypass with | some b => bit e.op 0 == b | none => true)
    if reserved || here then
      f.startOp .fmu ocSpare fun f e =>
        if reserved then f.draw.refuseOp e (Config.freeValue 8 f.freeCtr).toNat
        else f.stageAction e (.spare k (fld e.op 91 82) (e.op.extractLsb' 0 32))
    else f

/-- SPARE_WIRE (17 R373). -/
def execSpareWire (s : State) : Host.Outcome State Fault Refusal := s.run fun f => f.spareOp 0 none
/-- SPARE_RETRAIN (17 R374). -/
def execSpareRetrain (s : State) : Host.Outcome State Fault Refusal := s.run fun f => f.spareOp 1 none
/-- SPARE_BANK (17 R375). -/
def execSpareBank (s : State) : Host.Outcome State Fault Refusal := s.run fun f => f.spareOp 2 none
/-- SPARE_SLICE (17 R376). -/
def execSpareSlice (s : State) : Host.Outcome State Fault Refusal := s.run fun f => f.spareOp 3 none
/-- SPARE_BYPASS (17 R377). -/
def execSpareBypass (s : State) : Host.Outcome State Fault Refusal := s.run fun f => f.spareOp 4 (some true)
/-- SPARE_RESTORE (17 R377). -/
def execSpareRestore (s : State) : Host.Outcome State Fault Refusal := s.run fun f => f.spareOp 4 (some false)
/-- SPARE_GATEWAY (17 R378). -/
def execSpareGateway (s : State) : Host.Outcome State Fault Refusal := s.run fun f => f.spareOp 5 none
/-- SPARE_TREE (17 R379). -/
def execSpareTree (s : State) : Host.Outcome State Fault Refusal := s.run fun f => f.spareOp 6 none

/-- POWER (12 R285, R287): the change is staged. DEDUCED (log entry 26). -/
def Fabric.powerOp (f : Fabric) (on : Bool) : Fabric :=
  match f.fmuSkip.head .fmu with
  | none => f
  | some e => if bit e.op 95 == on then
      f.startMgmt ocPower fun f e =>
        let p := fld e.op 89 80
        if f.kind p == 0 then f.refuseOp e 0x09 else f.stageAction e (.power p on)
    else f

/-- POWER_ON (12 R287). -/
def execPowerOn (s : State) : Host.Outcome State Fault Refusal := s.run fun f => f.powerOp true
/-- POWER_OFF (12 R285). -/
def execPowerOff (s : State) : Host.Outcome State Fault Refusal := s.run fun f => f.powerOp false

/-- A SNAP with the given `STOP` bit has been taken and has not completed (16 R366). -/
def Fabric.snapPending (f : Fabric) (stop : Bool) : Bool :=
  f.fmu.chan.queue.any fun e => e.issued && opcOf e.op == ocSnap && bit e.op 95 == stop

/-- A SNAP stop is ordered for `at_`: of it and a pending HALT stop the earlier applies (16 R367).
DEDUCED (log entry 79). -/
def StopCtl.order (c : StopCtl) (at_ : Nat) : StopCtl := match c.stopAt with
  | some (a, _) => if a ≤ at_ then c else { c with stopAt := some (at_, false), lastAt := at_ }
  | none => { c with stopAt := some (at_, false), lastAt := at_ }

/-- The reason a SNAP is refused (16 R366). DEDUCED (log entry 137). -/
def Fabric.snapReason (f : Fabric) (op : Op) : Option Nat :=
  let at_ := fld op 59 0
  if at_ < f.time.fcc + 65536 * f.unit then some 0x04
  else if at_ / msLen > f.msc + 65536 then some 0x05
  else if f.snapPending (bit op 95) then some 0x0D
  else if !f.time.aligned then some 0x06
  else none

/-- SNAP at the head with the given `STOP` bit: the instant is set and the next op may start.
DEDUCED (log entry 98). -/
def Fabric.snapOp (f : Fabric) (stop : Bool) : Fabric :=
  match f.fmuSkip.head .fmu with
  | none => f
  | some e => if bit e.op 95 == stop then
      f.startOp .fmu ocSnap fun f e =>
        match f.snapReason e.op with
        | some r => f.refuseOp e r
        | none =>
          let at_ := fld e.op 59 0
          (f.updEntry .fmu e.eid fun x => { x with issued := true }).updFmu fun m => { m with
            stop := if stop then m.stop.order at_
                    else { m.stop with freezeAt := some at_ } }
    else f

/-- SNAP_FREEZE (16 R366). -/
def execSnapFreeze (s : State) : Host.Outcome State Fault Refusal := s.run fun f => f.snapOp false
/-- SNAP_STOP (16 R366). -/
def execSnapStop (s : State) : Host.Outcome State Fault Refusal := s.run fun f => f.snapOp true

end Sys2Proof.Machine
end

