-- ==== Sys2Proof/Machine/Trees.lean ====
section
/-! DEFINITION. Trees: the Tree Table, tree descriptors, set-up, join, leave and tear-down; the op
TREE (10 R228-R233). -/

namespace Sys2Proof.Machine

/-! ## The Tree Table (R229) -/

/-- The entries of a stop that grant a tree id: entry and word 0. -/
def Fabric.grants (f : Fabric) (s : Nat) : List (Nat × Word) :=
  ((f.stopU s).cfg.tabs.filter fun e => e.1 / 2 ^ 24 == 2 && e.1 % 8 == 0 && bit e.2 31).map
    fun e => (e.1 % 2 ^ 24 / 8, e.2)

/-- The granted entry of a tree id at a stop, with the domain it is granted to. -/
def Fabric.grantOf (f : Fabric) (s tree : Nat) : Option (Nat × Nat) :=
  ((f.grants s).find? fun e => fld e.2 11 0 == tree).map fun e => (e.1, fld e.2 29 24)

/-- Word w of Tree Table entry e of a stop. -/
def Fabric.trw (f : Fabric) (s e w : Nat) : Word := (f.stopU s).rdu.tree.get (8 * e + w) 0

/-- The entry of a tree that is set up at a stop. -/
def Fabric.treeAt (f : Fabric) (s tree : Nat) : Option Nat :=
  match f.grantOf s tree with
  | some (e, _) => if fld (f.trw s e 1) 31 30 != 0 then some e else none
  | none => none

/-- Fields of word 1. -/
def twRole (w : Word) : Nat := fld w 31 30
def twBroken (w : Word) : Bool := bit w 29
def twFreeze (w : Word) : Bool := bit w 28
def twXn (w : Word) : Bool := bit w 27
def twNbuf (w : Word) : Nat := fld w 26 21
def twExpect (w : Word) : Nat := fld w 20 16
def twIn (w : Word) : Nat := fld w 15 12
def twMembers (w : Word) : Nat := fld w 11 8
def twOut (w : Word) : Nat := fld w 7 4

/-- Write words 1-7 of an entry; none given clears them. -/
def Fabric.setTreeWords (f : Fabric) (s e : Nat) (ws : List Word) : Fabric :=
  let put (m : WMap) : WMap := (List.range 7).foldl
    (fun m i => if ws.isEmpty then m.del (8 * e + i + 1) else m.put (8 * e + i + 1) (ws.getD i 0)) m
  f.updStop s fun x => { x with rdu := { x.rdu with tree := put x.rdu.tree } }

/-- Set or clear a bit of word 1 in every entry of a tree. -/
def Fabric.markTree (f : Fabric) (tree b : Nat) (on : Bool) : Fabric :=
  let fix (w : Word) : Word := if on then w ||| BitVec.ofNat 32 (2 ^ b) else w &&& ~~~BitVec.ofNat 32 (2 ^ b)
  f.stopIds.foldl (fun g s => match g.treeAt s tree with
    | some e => g.updStop s fun x => { x with rdu := { x.rdu with tree := x.rdu.tree.upd (8 * e + 1) 0 fix } }
    | none => g) f

/-! ## Descriptors (R230) -/

def tdRoot (d : BitVec 512) : Nat := fld d 9 0
def tdCfmt (d : BitVec 512) : Nat := fld d 15 12
def tdRfmt (d : BitVec 512) : Nat := fld d 19 16
def tdRop (d : BitVec 512) : Nat := fld d 23 20
def tdPw (d : BitVec 512) : Nat := fld d 25 24
def tdGuard (d : BitVec 512) : Nat := fld d 30 26
def tdRes (d : BitVec 512) : Bool := bit d 31
def tdMult (d : BitVec 512) : Nat := fld d 34 32
def tdNbuf (d : BitVec 512) : Nat := fld d 40 35
def tdHtmo (d : BitVec 512) : Nat := fld d 63 48
def tdRaddr (d : BitVec 512) : Nat := fld d 111 64
def tdNtotal (d : BitVec 512) : Nat := fld d 144 128
def tdUptree (d : BitVec 512) : Nat := fld d 159 148
def tdUpnode (d : BitVec 512) : Nat := fld d 175 160
def tdUp (d : BitVec 512) : Bool := bit d 191
def tdMask (d : BitVec 512) : Nat := fld d 447 192
def tdPmask (d : BitVec 512) : Nat := fld d 451 448
def tdGwport (d : BitVec 512) : Nat := fld d 461 452
def tdGwmult (d : BitVec 512) : Nat := fld d 463 462
def tdGwv (d : BitVec 512) : Bool := bit d 464
def tdVlen (d : BitVec 512) : Nat := fld d 511 480

/-- Reserved bits of a descriptor. -/
def tdReserved (d : BitVec 512) : Bool :=
  fld d 11 10 != 0 || fld d 47 41 != 0 || fld d 127 112 != 0 || fld d 147 145 != 0 ||
  fld d 190 176 != 0 || fld d 479 465 != 0

/-- The Core NI members a descriptor names. -/
def tdMembers (d : BitVec 512) : List Nat :=
  (bitsSet 256 (tdMask d)).flatMap fun s => (bitsSet 4 (tdPmask d)).map fun p => 4 * s + p

def tdChunk (d : BitVec 512) : Nat := redChunk (tdRop d) (tdCfmt d) (tdPw d)

/-! ## The shape of a tree (R228) -/

/-- The members of a record: Core NIs and the gateway. -/
def TreeRec.ports (t : TreeRec) : List Nat :=
  t.members ++ if tdGwv t.desc then [tdGwport t.desc] else []

def TreeRec.root (t : TreeRec) : Nat := stopOfPort (tdRoot t.desc)

/-- The links of a path to stop r: o is the direction of travel, 4 before the first link. -/
def Fabric.treeWalk (f : Fabric) (r : Nat) : Nat → Nat → Nat → Option (List (Nat × Nat))
  | 0, _, _ => none
  | n + 1, s, o =>
    if s == r then some []
    else
      let out : Option Nat :=
        if o == 2 || o == 3 then some o
        else if xOf s != xOf r then (if o < 2 then some o else none)
        else match f.hop s r f.epoch with
          | some .plusY => some 2
          | some .minusY => some 3
          | _ => none
      match out with
      | none => none
      | some k => match f.treeWalk r n (neighbour f.variant s k) k with
        | some l => some ((s, k) :: l)
        | none => none

/-- The path of a member port's stop to the root stop. -/
def Fabric.treePath (f : Fabric) (p r : Nat) : Option (List (Nat × Nat)) :=
  if !f.srtValid p r then none
  else match f.srtDir p r with
    | 0 => f.treeWalk r 40 (stopOfPort p) 4
    | 2 => f.treeWalk r 40 (stopOfPort p) 1
    | _ => f.treeWalk r 40 (stopOfPort p) 0

/-- The links of the whole tree; none where some path does not exist. The Source Route Tables of the
members of one stop may differ: every member gives its path. -/
def Fabric.treeLinks (f : Fabric) (t : TreeRec) : Option (List (Nat × Nat)) :=
  t.ports.foldl (fun acc p => match acc, f.treePath p t.root with
    | some l, some k => some (l ++ k.filter fun x => !l.contains x)
    | _, _ => none) (some [])

/-- The stops of a tree: those its links leave, and the root. -/
def treeStops (t : TreeRec) (ls : List (Nat × Nat)) : List Nat :=
  ((ls.map (·.1)).eraseDups.filter (· != t.root)) ++ [t.root]

/-- Two paths leave one stop by different outputs. -/
def treeForks (ls : List (Nat × Nat)) : Bool :=
  ls.any fun x => ls.any fun y => x.1 == y.1 && x.2 != y.2

/-- `IN` of a stop. -/
def Fabric.treeIn (f : Fabric) (ls : List (Nat × Nat)) (s : Nat) : Nat :=
  ((List.range 4).map fun i => b2n (ls.any fun x => x.2 == i && neighbour f.variant x.1 i == s) * 2 ^ i).sum

/-- `LMEMB` of a stop. -/
def TreeRec.lmemb (t : TreeRec) (s : Nat) : Nat :=
  ((List.range 4).map fun i => b2n (t.ports.contains (4 * s + i)) * 2 ^ i).sum

/-- `EXPECT` of a stop. -/
def Fabric.treeExpect (f : Fabric) (t : TreeRec) (ls : List (Nat × Nat)) (s : Nat) : Nat :=
  popcountN 4 (f.treeIn ls s) + tdMult t.desc * (t.members.filter fun p => stopOfPort p == s).length +
  (if tdGwv t.desc && stopOfPort (tdGwport t.desc) == s then tdGwmult t.desc + 1 else 0)

/-- `ROLE` of a stop: 1 pass, 2 merge, 3 root. -/
def Fabric.treeRole (f : Fabric) (t : TreeRec) (ls : List (Nat × Nat)) (s : Nat) : Nat :=
  if s == t.root then 3
  else if popcountN 4 (f.treeIn ls s) == 1 && t.lmemb s == 0 then 1 else 2

/-- Words 1-7 of a stop (R229). -/
def Fabric.treeWords (f : Fabric) (t : TreeRec) (ls : List (Nat × Nat)) (s : Nat) : List Word :=
  let d := t.desc
  let role := f.treeRole t ls s
  let out := if role == 3 then 4 + localOfPort (tdRoot d) else ((ls.find? fun x => x.1 == s).map (·.2)).getD 0
  [mkWord [(30, role), (27, b2n (tdUp d || tdGwv d)), (21, if role == 1 then 0 else tdNbuf d),
      (16, f.treeExpect t ls s), (12, f.treeIn ls s), (8, t.lmemb s), (4, out)],
    mkWord [(28, tdRop d), (26, tdPw d), (21, redG (tdCfmt d) (tdGuard d)), (17, tdCfmt d), (13, tdRfmt d),
      (12, b2n (tdRes d)), (0, tdChunk d)],
    mkWord [(16, tdHtmo d), (0, tdUpnode d)],
    mkWord [(31, b2n (tdUp d)), (12, tdNtotal d), (0, tdUptree d)],
    BitVec.ofNat 32 (tdRaddr d),
    BitVec.ofNat 32 (tdRaddr d / 2 ^ 32),
    BitVec.ofNat 32 (tdVlen d)]

/-! ## The checks (R231) -/

/-- The tree a request names, and what it asks. -/
def treeId (r : Packet) : Nat := fld r.hdr.addr 11 0
def treeAct (r : Packet) : Nat := fld r.hdr.addr 13 12

/-- Partial buffers reserved at a stop, set-ups in progress included. DEDUCED (log entry 89). -/
def Fabric.treeReserved (f : Fabric) (s : Nat) : Nat :=
  (((f.grants s).map fun g => twNbuf (f.trw s g.1 1)).sum) +
  (f.dies.flatMap fun d => d.2.trees.flatMap fun t => (t.words.filter fun w => w.1 == s && t.confirm.contains s).map
    fun w => twNbuf (w.2.headD 0)).sum

/-- Egress space of a gateway that nothing has reserved (13 R303). DEDUCED (log entry 113). -/
def Fabric.egFree (f : Fabric) (g : Nat) : Nat :=
  let named (p : Nat) : Bool := (List.range 16).any fun i =>
    let w := f.niEp p f.epoch 1 i
    bit w 31 && fld w 9 0 == g
  -- set-ups in progress have reserved their share
  let started := (f.dies.flatMap fun d => d.2.trees.filterMap fun q => if treeAct q.req == 0 then q.result else none).filter
    fun t => tdUp t.desc && tdRoot t.desc == g
  16384 - (f.ni g).gw.egReserved - (started.map fun t => 33 * tdNbuf t.desc).sum -
    ((f.portIds.filter fun p => f.kind p == 1 && named p).map fun p => max 0x21 (fld (f.niReg p 0x900) 15 0)).sum

/-- Step 1 as to the descriptor's own fields. -/
def Fabric.descBad (f : Fabric) (t : TreeRec) : Bool :=
  let d := t.desc
  tdReserved d || tdMult d == 0 || tdMult d > 4 || tdNbuf d == 0 || tdNbuf d > 32 || tdHtmo d == 0 ||
  !redCombo (tdRop d) (tdCfmt d) (tdRfmt d) ||
  (if tdRop d == 0 then !redWide (tdCfmt d) (tdGuard d) (countOf (tdNtotal d)) (tdPw d) else tdPw d != 0) ||
  tdVlen d == 0 || tdVlen d % 32 != 0 || tdVlen d > 65536 * tdChunk d ||
  (if tdUp d then f.kind (tdRoot d) != 3 else f.kind (tdRoot d) != 1 && f.kind (tdRoot d) != 2) ||
  t.members.any (fun p => f.kind p != 1) ||
  (tdGwv d && f.kind (tdGwport d) != 3)

/-- The first failing check for a tree: its status, and the stop that lacks buffers. -/
def Fabric.treeCheck (f : Fabric) (t : TreeRec) (tree dom : Nat) (own : Bool) : Option (Status × Option Nat) :=
  if f.descBad t then some (.malformed, none)
  else
    let links := f.treeLinks t
    let ls := links.getD []
    let stops := treeStops t ls
    if treeForks ls || stops.any (fun s => f.treeExpect t ls s > 31) then some (.malformed, none)
    else if stops.any fun s => (f.grantOf s tree).isNone then some (.unreachable, none)
    else if stops.any (fun s => ((f.grantOf s tree).map (·.2)) != some dom) ||
        (tdRoot t.desc :: t.ports).any (fun p => !f.accepts p dom) then some (.domainDeny, none)
    else if links.isNone || ls.any (fun x => (f.txOf x.1 x.2).state == .withdrawn) ||
        stops.any (fun s => (f.stopU s).spare.bypass) then some (.unreachable, none)
    else
      let mine (s : Nat) : Nat := if own then (match f.treeAt s tree with | some e => twNbuf (f.trw s e 1) | none => 0) else 0
      match stops.find? fun s => f.treeRole t ls s != 1 && 32 + mine s < f.treeReserved s + tdNbuf t.desc with
      | some s => some (.unreachable, some s)
      | none =>
        if tdUp t.desc && !own && f.egFree (tdRoot t.desc) < 33 * tdNbuf t.desc then
          some (.unreachable, some (stopOfPort (tdRoot t.desc)))
        else none

/-! ## Tear-down (R232, R233) -/

/-- Every entry's words 1-7 and every buffer of a tree are freed; its record goes. DEDUCED (log entry 89). -/
def Fabric.tearDown (f : Fabric) (tree : Nat) : Fabric :=
  let rec_ := (f.die 0).recs.find? tree
  let f1 := f.stopIds.foldl (fun g s => match g.treeAt s tree with
    | some e => (g.setTreeWords s e []).updStop s fun x => { x with rdu := { x.rdu with
        bufs := x.rdu.bufs.filter fun b => b.2.tree.toNat != tree } }
    | none => g) f
  let forget (n : Ni) : Ni := { n with ini := { n.ini with redLow := n.ini.redLow.del tree } }
  let f1 := { f1 with nis := f1.nis.mapAll fun _ n => forget n }
  let f2 := f1.dieIds.foldl (fun g d => g.updDie d fun x => { x with recs := x.recs.del tree }) f1
  match rec_ with
  | some t => if tdUp t.desc then f2.updNi (tdRoot t.desc) fun n =>
      { n with gw := { n.gw with egReserved := n.gw.egReserved - 33 * tdNbuf t.desc } } else f2
  | none => f2

/-- A tree becomes known to every slice. DEDUCED (log entry 113). -/
def Fabric.recordTree (f : Fabric) (tree : Nat) (t : TreeRec) : Fabric :=
  let new := ((f.die 0).recs.find? tree).isNone
  let f1 := f.dieIds.foldl (fun g d => g.updDie d fun x => { x with recs := x.recs.put tree t }) f
  if new && tdUp t.desc then f1.updNi (tdRoot t.desc) fun n =>
    { n with gw := { n.gw with egReserved := n.gw.egReserved + 33 * tdNbuf t.desc } } else f1

/-- No buffer of a tree is open anywhere. -/
def Fabric.treeIdle (f : Fabric) (tree : Nat) : Bool :=
  f.stops.all fun s => s.2.rdu.bufs.all fun b => b.2.tree.toNat != tree

/-! ## Requests at a slice (R231, R232) -/

/-- The slice answers a tree request. -/
def Fabric.treeAnswer (f : Fabric) (die : Nat) (r : Packet) (st : Status) (at_ : Option Nat) : Fabric :=
  let p := slicePort die
  let src := match at_ with | some s => 4 * s | none => p
  let n := if st = .ok then r.hdr.bcnt else 0
  f.answer p { hdr := { answerHdr r.hdr 3 st (f.node p) src with bcnt := n } }

/-- The orders that write the entries of a tree, and the request that waits for them. -/
def Fabric.treeOrder (f : Fabric) (die : Nat) (r : Packet) (ws : List (Nat × List Word)) (res : Option TreeRec) : Fabric :=
  (f.addOrders (ws.map fun w => (.stop w.1, .tree die w.1 w.2))).updDie die fun x =>
    { x with trees := x.trees ++ [{ req := r, confirm := ws.map (·.1), words := ws, result := res }] }

/-- A set-up at the slice. -/
def Fabric.treeSetUpReq (f : Fabric) (die : Nat) (r : Packet) : Fabric :=
  let d : BitVec 512 := BitVec.ofNat 512 (ofBytesLE r.body)
  let t : TreeRec := { owner := fld r.hdr.src 9 0, desc := d, members := tdMembers d }
  let busy := ((f.die die).recs.find? (treeId r)).isSome ||
    f.dies.any fun x => x.2.trees.any fun q => treeId q.req == treeId r
  if (bitsSet 256 (tdMask d)).any (· ≥ nStops f.variant) || busy then f.treeAnswer die r .malformed none
  else match f.treeCheck t (treeId r) r.hdr.domain.toNat false with
    | some (st, s) => f.treeAnswer die r st s
    | none =>
      let ls := (f.treeLinks t).getD []
      f.treeOrder die r ((treeStops t ls).map fun s => (s, f.treeWords t ls s)) (some t)

/-- The record that a join or leave makes; none tears the tree down. -/
def TreeRec.changed (t : TreeRec) (join : Bool) (p : Nat) : Option TreeRec :=
  if join then some { t with members := t.members ++ [p] }
  else if p == t.owner then none
  else some { t with members := t.members.filter (· != p) }

/-- A join by a member, or a leave by a port that is none (R232). -/
def TreeRec.notChanged (t : TreeRec) (join : Bool) (p : Nat) : Bool :=
  if join then t.members.contains p else p != t.owner && !t.members.contains p

/-- A request for a tree waits for confirmations at some slice. DEDUCED (log entry 138). -/
def Fabric.treeBusy (f : Fabric) (tree : Nat) : Bool :=
  f.dies.any fun x => x.2.trees.any fun q => treeId q.req == tree && !q.freeze

/-- A tree for which another join or leave waits stays frozen. -/
def Fabric.refreeze (f : Fabric) (tree : Nat) : Fabric :=
  f.when (f.dies.any fun x => x.2.trees.any fun q => treeId q.req == tree && q.freeze) fun f => f.markTree tree 28 true

/-- A join or leave at the slice: the tree is frozen. -/
def Fabric.treeChangeReq (f : Fabric) (die : Nat) (r : Packet) (join : Bool) : Fabric :=
  let p := fld r.hdr.src 9 0
  match (f.die die).recs.find? (treeId r) with
  | none => f.treeAnswer die r .unreachable none
  | some t =>
    if t.notChanged join p then f.treeAnswer die r .malformed none
    else (f.markTree (treeId r) 28 true).updDie die fun x =>
      { x with trees := x.trees ++ [{ req := r, freeze := true }] }

/-- TREE_REQUEST (R231, R232): the oldest request packet at the slice's port. Any other request is
answered `MALFORMED`. -/
def execTreeRequest (die : Nat) (s : State) : Host.Outcome State Fault Refusal :=
  s.run fun f => f.when (f.moving && die < nDies f.variant && hasRdu f.variant) <|
    fun f =>
      let p := slicePort die
      f.niTake p (fun q => (q.hdr.kind == 0 || q.hdr.kind == 1) && !(p == fmuPort && q.hdr.kind == 0))
        fun f r _ =>
          let ok := r.hdr.kind == 1 && fld r.hdr.addr 47 40 == 0xFD && kindLegal r.hdr
          if ok && treeAct r == 0 && r.hdr.bcnt == 64 && lengthsLegal r.hdr then f.treeSetUpReq die r
          else if ok && (treeAct r == 1 || treeAct r == 2) && r.hdr.bcnt == 0 && r.hdr.len == 1 then
            f.treeChangeReq die r (treeAct r == 1)
          else f.niRefuse p r.hdr .malformed

/-- TREE_FREEZE_APPLY (R232): no buffer of a frozen tree is open any more, and the change is
checked and written, or given up. DEDUCED (log entry 138). -/
def execTreeFreezeApply (die : Nat) (s : State) : Host.Outcome State Fault Refusal :=
  s.run fun f => f.when (f.moving && die < nDies f.variant) <|
    fun f =>
      match takeFirst (fun q => q.freeze && f.treeIdle (treeId q.req) && !f.treeBusy (treeId q.req)) (f.die die).trees with
      | none => f
      | some (q, rest) =>
        let f1 := f.updDie die fun x => { x with trees := rest }
        let tree := treeId q.req
        match (f.die die).recs.find? tree with
        | none => f1.treeAnswer die q.req .unreachable none
        | some t =>
          let join := treeAct q.req == 1
          let p := fld q.req.hdr.src 9 0
          if t.notChanged join p then ((f1.markTree tree 28 false).refreeze tree).treeAnswer die q.req .malformed none
          else match t.changed join p with
          | none => (f1.tearDown tree).treeAnswer die q.req .ok none
          | some t2 =>
            match f1.treeCheck t2 tree q.req.hdr.domain.toNat true with
            | some (st, s) => ((f1.markTree tree 28 false).refreeze tree).treeAnswer die q.req st s
            | none =>
              let ls := (f1.treeLinks t2).getD []
              let stops := treeStops t2 ls
              let gone := f1.stopIds.filter fun s => (f1.treeAt s tree).isSome && !stops.contains s
              f1.treeOrder die q.req
                ((stops.map fun s => (s, f1.treeWords t2 ls s)) ++ gone.map fun s => (s, [])) (some t2)

/-- The effective g that `GUARD` gives for a `CFMT` (14 R324, R325). -/
def guardByte (w : Word) (cfmt : Nat) : Nat :=
  let b := match cfmt with
    | 0 => fld w 31 24
    | 1 => fld w 23 16
    | 2 => fld w 15 8
    | 3 => fld w 15 8
    | 15 => fld w 15 8
    | _ => fld w 7 0
  redG cfmt b

/-- A slice that answers a set-up `OK` compares the tree's g with `GUARD` (14 R325). -/
def Fabric.compareGuard (f : Fabric) (t : TreeRec) : Fabric :=
  let c := tdCfmt t.desc
  let w : Word := NMap.get f.fmu.dig.rw 1 0
  f.when (tdRop t.desc == 0 && !isIntFmt c && redG c (tdGuard t.desc) != guardByte w c) fun f =>
    f.updFmu fun m => { m with dig := { m.dig with gmis := true } }

/-- TREE_RDU_CONFIRM (R231): the RDU of a stop writes its entry and confirms; the last one answers
the request. DEDUCED (log entry 138). -/
def execTreeRduConfirm (die stop : Nat) (s : State) : Host.Outcome State Fault Refusal :=
  s.run fun f => f.when (f.moving && stop < nStops f.variant) <|
    fun f =>
      let is (x : UnitId × Order) : Bool := match x.2 with
        | .tree d t _ => d == die && t == stop
        | _ => false
      match takeFirst is f.fmu.road.orders with
      | none => f
      | some ((_, o), rest) =>
        let f1 := f.updFmu fun m => { m with road := { m.road with orders := rest } }
        match takeFirst (fun q => q.confirm.contains stop) (f1.die die).trees with
        | none => f1
        | some (q, others) =>
          let tree := treeId q.req
          let ws := match o with | .tree _ _ ws => ws | _ => []
          let f2 := match f1.grantOf stop tree with
            | some (e, _) => f1.setTreeWords stop e ws
            | none => f1
          let left := q.confirm.erase stop
          if left.isEmpty then
            let f3 := f2.updDie die fun x => { x with trees := others }
            let kept := q.words.all fun w => w.2.isEmpty || (f3.grantOf w.1 tree).isSome
            let f4 := match q.result with
              | some t => if treeAct q.req == 0 then (f3.recordTree tree t).compareGuard t else f3.recordTree tree t
              | none => f3
            if kept then (f4.refreeze tree).treeAnswer die q.req .ok none
            else (f3.tearDown tree).treeAnswer die q.req .unreachable none
          else f2.updDie die fun x => { x with trees := x.trees.map fun y => if y == q then { y with confirm := left } else y }

/-! ## The op TREE (R231, R232) -/

/-- The request of a TREE joins its channel's queue. -/
def Fabric.sendTree (f : Fabric) (p chan : Nat) (e : QEntry) (tact : Nat) (body : Bytes) : Fabric :=
  let (t, f1) := f.takeTag p
  let dom := ((f.entry (.tsq p chan) e.eid).map fun x => x.work.dom).getD 0
  let a : Nat := 0xFD * 2 ^ 40 + tact * 2 ^ 12 + fld e.op 93 82
  let h : Header := { cls := 2, kind := 1, op := BitVec.ofNat 6 ocTree, domain := dom
                      dest := f.destOf p (slicePort (dieOfPort p)), src := f.srcOf p, tag := t
                      addr := BitVec.ofNat 48 a, bcnt := BitVec.ofNat 13 body.length
                      len := BitVec.ofNat 6 (if body.isEmpty then 1 else dataLen a body.length) }
  (f1.updWork (.tsq p chan) e.eid fun k => { k with outstanding := 1, tags := [t] }).enqueue p chan
    { pkt := { hdr := h, body := body }, purpose := some (.tree chan e.eid) }

/-- A TREE with the given TACT starts; in crawl service it ends at once (18 R397). -/
def Fabric.startTree (f : Fabric) (p chan tact : Nat) (k : Fabric → QEntry → Fabric) : Fabric :=
  match f.head (.tsq p chan) with
  | some e => if fld e.op 95 94 == tact then f.startOp (.tsq p chan) ocTree fun f e =>
      if f.crawl then f.finish (.tsq p chan) e.eid .unreachable (infoPort p 0) else k f e
    else f
  | none => f

/-- TREE_SET_UP (R231): reading the descriptor begins. -/
def execTreeSetUp (port chan : Nat) (s : State) : Host.Outcome State Fault Refusal :=
  s.run fun f => f.startTree port chan 0 fun f _ => f.updChan (.tsq port chan) fun c => { c with reason := 6 }

/-- TREE_DESCRIPTOR_LOAD (R231): the 64 bytes have been read and the request goes out. -/
def execTreeDescriptorLoad (port chan : Nat) (desc : BitVec 512) (s : State) : Host.Outcome State Fault Refusal :=
  s.run fun f => f.when (f.seqLive (.tsq port chan)) <|
    fun f =>
      match f.running (.tsq port chan) ocTree with
      | some e =>
        if fld e.op 95 94 == 0 && e.work.tags.isEmpty && !e.aborted then
          (f.updChan (.tsq port chan) fun c => { c with reason := if c.halted then 8 else 0 }).sendTree port chan e 0
            (toBytesLE desc.toNat 64)
        else f
      | none => f

/-- TREE_JOIN (R232). -/
def execTreeJoin (port chan : Nat) (s : State) : Host.Outcome State Fault Refusal :=
  s.run fun f => f.startTree port chan 1 fun f e => f.sendTree port chan e 1 []

/-- TREE_LEAVE (R232). -/
def execTreeLeave (port chan : Nat) (s : State) : Host.Outcome State Fault Refusal :=
  s.run fun f => f.startTree port chan 2 fun f e => f.sendTree port chan e 2 []

end Sys2Proof.Machine
end

