-- ==== Sys2Proof/Machine/RedSource.lean ====
section
/-! DEFINITION. Reductions at a contributor: the op REDUCE, its chunks, anchor and main passes, and
the completion of contributions (10 R234-R237, R242; 13 R308). -/

namespace Sys2Proof.Machine

/-! ## Fields of word 2 (R229) -/

def twRop (w : Word) : Nat := fld w 31 28
def twPw (w : Word) : Nat := fld w 27 26
def twGuard (w : Word) : Nat := fld w 25 21
def twCfmt (w : Word) : Nat := fld w 20 17
def twRfmt (w : Word) : Nat := fld w 16 13
def twRes (w : Word) : Bool := bit w 12
def twChunk (w : Word) : Nat := fld w 11 0

/-- Bytes of n elements of a format. -/
def elemBytes (fmt n : Nat) : Nat := n / fmtElems fmt * fmtSize fmt

/-- Payload bytes of a reduction packet: partials, native elements, or none in an anchor pass (03 R75). -/
def redBody (fmt : Nat) (m : RedMeta) : Nat :=
  if m.rop == 7 then 0
  else if m.pw != 0 then m.ecnt.toNat * pwBits m.pw.toNat / 8
  else elemBytes fmt m.ecnt.toNat

/-- An `RD_DONE` breaks the ranges and lengths of 03 R75 and R81 step 8. -/
def doneBad (h : Header) (m : RedMeta) : Bool :=
  badHeader h || m.ecnt.toNat == 0 || m.ecnt.toNat > 2048 || m.eoff.toNat % 32 != 0 ||
  (h.bcnt != 0 && h.bcnt.toNat != redBody h.fmt.toNat m)

/-- Step 8 of R81 for a whole packet: an `RD_CONTRIB` or `RD_DONE` keeps its lengths and ranges too. -/
def badPacket (x : Packet) : Bool :=
  let m := redOf x.aux
  if x.hdr.kind == 7 then badHeader x.hdr || x.hdr.bcnt.toNat != redBody x.hdr.fmt.toNat m
  else if x.hdr.kind == 8 then doneBad x.hdr m
  else badHeader x.hdr

/-! ## Fields of the op (07 R156) -/

def rdTree (o : Op) : Nat := fld o 59 48
def rdRop (o : Op) : Nat := fld o 47 44
def rdGuard (o : Op) : Nat := fld o 43 39
def rdAnch (o : Op) : Bool := bit o 38
def rdEoff (o : Op) : Nat := fld o 31 0

/-- Elements of a tile. -/
def tileElems (d : BitVec 512) (t : Nat) : Nat :=
  tileExt d t 0 * tileExt d t 1 * tileExt d t 2 * tileExt d t 3

/-! ## The start (R235) -/

/-- The first failing check of R235 after those of R169. DEDUCED (log entry 24). -/
def Fabric.reduceCheck (f : Fabric) (p : Nat) (o : Op) (d : BitVec 512) (dom : BitVec 6) : Option Status :=
  let s := stopOfPort p
  match f.grantOf s (rdTree o), f.treeAt s (rdTree o) with
  | some (_, gdom), some e =>
    let w1 := f.trw s e 1
    let w2 := f.trw s e 2
    let vlen := (f.trw s e 7).toNat
    let stop := rdEoff o + tileElems d (fld o 83 60)
    if twBroken w1 || !(twMembers w1).testBit (localOfPort p) then some .unreachable
    else if gdom != dom.toNat then some .domainDeny
    else if rdRop o != twRop w2 || dFmt d != twCfmt w2 || (rdGuard o != 0 && rdGuard o != twGuard w2) ||
        rdEoff o % twChunk w2 != 0 || stop > vlen || (stop % twChunk w2 != 0 && stop != vlen) ||
        (rdAnch o && (rdRop o != 0 || isIntFmt (twCfmt w2))) then
      some .malformed
    else none
  | _, _ => some .unreachable

/-- The chunks of n elements from element `eoff` of a vector cut into chunks of c. -/
def chunksOf (c cfmt eoff : Nat) (n : Nat) : List Chunk :=
  (List.range (ceilDiv n c)).map fun i =>
    let m := min c (n - i * c)
    { k := (eoff + i * c) / c, eoff := BitVec.ofNat 32 (eoff + i * c), ecnt := m
      off := elemBytes cfmt (i * c), len := elemBytes cfmt m }

/-! ## Contributions (R234, R236) -/

/-- The Tree Table words 1 and 2 of a tree at a port's stop. -/
def Fabric.treeW (f : Fabric) (p tree w : Nat) : Word :=
  match f.treeAt (stopOfPort p) tree with
  | some e => f.trw (stopOfPort p) e w
  | none => 0

/-- An `RD_CONTRIB` of a chunk: the anchor pass, or the main pass. -/
def Fabric.contrib (f : Fabric) (p chan : Nat) (e : QEntry) (i : Nat) (c : Chunk) (anchorPass : Bool) : OutPkt :=
  let w2 := f.treeW p (rdTree e.op) 2
  let n := if anchorPass then 0 else c.len
  let h : Header :=
    { cls := 4, kind := 7, op := BitVec.ofNat 6 ocReduce, domain := e.work.dom, dmode := 2
      dest := BitVec.ofNat 28 (f.node p * 1024), src := f.srcOf p, group := BitVec.ofNat 12 (rdTree e.op)
      tag := BitVec.ofNat 12 (rdTree e.op), seq := BitVec.ofNat 16 c.k, fmt := BitVec.ofNat 4 (twCfmt w2)
      bcnt := BitVec.ofNat 13 n, len := BitVec.ofNat 6 (1 + ceilDiv n 128) }
  let m : RedMeta :=
    { rop := if anchorPass then 7 else BitVec.ofNat 4 (rdRop e.op), pw := 0
      guard := BitVec.ofNat 5 (twGuard w2), ncontrib := 1, eoff := c.eoff, ecnt := BitVec.ofNat 12 c.ecnt
      pcount := if anchorPass then 0 else BitVec.ofNat 16 c.pcount }
  { pkt := { hdr := h, area := sliceBytes c.anchors 0 64, aux := redAux m, body := if anchorPass then [] else c.data }
    purpose := some (.chunk chan e.eid i), resolved := true, injDir := some 0, red := true }

/-- Runs that a chunk needs. -/
def Chunk.needs (c : Chunk) (r : Run) : Bool := r.local_ < c.off + c.len && c.off < r.local_ + r.bytes

/-- The bytes of a chunk, from the runs that hold them. -/
def Work.chunkBytes (k : Work) (c : Chunk) : Bytes :=
  (k.runs.filter c.needs).flatMap fun r =>
    let lo := max c.off r.local_
    let hi := min (c.off + c.len) (r.local_ + r.bytes)
    sliceBytes r.data (lo - r.local_) (hi - lo)

/-- The chunk makes an anchor pass first. -/
def Fabric.anchorFirst (f : Fabric) (p : Nat) (o : Op) : Bool :=
  rdRop o == 0 && !rdAnch o && !isIntFmt (twCfmt (f.treeW p (rdTree o) 2))

/-- Change chunk i of an op. -/
def Fabric.updChunk (f : Fabric) (p chan eid i : Nat) (g : Chunk → Chunk) : Fabric :=
  f.updWork (.tsq p chan) eid fun k => { k with chunks := k.chunks.modify i g }

/-- A chunk whose source has been read joins its channel's queue, or is given up. -/
def Fabric.readyChunk (f : Fabric) (p chan eid i : Nat) : Fabric :=
  let w : Seqr := .tsq p chan
  match f.entry w eid with
  | none => f
  | some e =>
    match e.work.chunks[i]? with
    | none => f
    | some c =>
      let rs := e.work.runs.filter c.needs
      let prior := (e.work.chunks.take i).all fun x => x.pass != 0 || x.done
      if c.pass != 0 || c.done || !prior || !(rs.all (·.done)) || e.aborted then f
      else if rs.any fun r => r.st != .ok && r.st != .poison then
        ((f.updChunk p chan eid i fun x => { x with done := true }).updWork w eid fun k =>
          { k with toInject := k.toInject - 1, outstanding := k.outstanding - 1 }).checkIssued w eid
      else
        let data := e.work.chunkBytes c
        let first := f.anchorFirst p e.op
        let cfmt := twCfmt (f.treeW p (rdTree e.op) 2)
        let c1 : Chunk := { c with data := data, pass := if first then 1 else 2
                                   anchors := if first then anchorsOf cfmt data else c.anchors
                                   pcount := b2n (rs.any fun r => r.st == .poison) }
        (f.updChunk p chan eid i fun _ => c1).enqueue p chan (f.contrib p chan e i c1 first)

/-- Every chunk that is ready is queued, in ascending order (13 R308). -/
def Fabric.pumpChunks (f : Fabric) (p chan eid : Nat) : Fabric :=
  let n := ((f.entry (.tsq p chan) eid).map fun e => e.work.chunks.length).getD 0
  ((List.range n).foldl (fun g i => g.readyChunk p chan eid i) f).finishIfDone (.tsq p chan) eid

/-- REDUCE starts (07 R169; 18 R397; R235-R237). DEDUCED (log entry 24). -/
def Fabric.startReduce (f : Fabric) (p chan : Nat) (e : QEntry) (data anchors : Bytes) : Fabric :=
  let w : Seqr := .tsq p chan
  let bad := f.finish w e.eid .malformed (infoMal e.op 0x01 0)
  let t := fld e.op 83 60
  let dom := ((f.entry w e.eid).map fun x => x.work.dom).getD 0
  match f.slot p (fld e.op 95 90) with
  | none => bad
  | some d =>
    if dSpace d > 1 || !tileIn d t || (rdAnch e.op && (f.slot p (fld e.op 89 84)).isNone) then bad
    else if f.crawl then f.finish w e.eid .unreachable (infoPort p 0)
    else match f.reduceCheck p e.op d dom with
      | some .malformed => bad
      | some st => f.finish w e.eid st (infoPort p 0)
      | none =>
        let c := twChunk (f.treeW p (rdTree e.op) 2)
        let cs := (chunksOf c (dFmt d) (rdEoff e.op) (tileElems d t)).map fun x =>
          { x with anchors := if rdAnch e.op then
              sliceBytes anchors (x.eoff.toNat / 32) (ceilDiv x.ecnt 32) else [] }
        let n := rowBytes d t
        let rows := tileRows d t
        let remote := dSpace d == 0
        let runs : List Run :=
          if remote then numberWindows 0 [] (cutSegs 1 1 (joinSegs
            ((rows.zip (List.range rows.length)).map fun x => ⟨x.1, n * x.2, n, n⟩)))
          else [{ addr := 0, local_ := 0, bytes := n * rows.length, data := sliceBytes data 0 (n * rows.length), done := true }]
        let f1 := f.updWork w e.eid fun k => { k with
          src := d, runs := runs, chunks := cs, outstanding := cs.length, toInject := cs.length
          wins := if remote then windowsOf runs else [] }
        if remote then
          ((f1.takeTags p chan e.eid (ceilDiv runs.length 65536)).updNi p fun x =>
            { x with ini := { x.ini with walkQ := x.ini.walkQ ++ [(chan, e.eid, 0)] } }).updChan w
              fun c => { c with reason := 1 }
        else f1.pumpChunks p chan e.eid

/-- REDUCE (R235). -/
def execReduce (port chan : Nat) (data anchors : Bytes) (s : State) : Host.Outcome State Fault Refusal :=
  s.run fun f => f.startOp (.tsq port chan) ocReduce fun f e => f.startReduce port chan e data anchors

/-! ## Source reads (R237) -/

/-- A source read of a REDUCE ends; chunks that have all their bytes are contributed. -/
def Fabric.settleRedRead (f : Fabric) (p chan eid i : Nat) (st : Status) (info : BitVec 48) (data : Bytes) : Fabric :=
  let w : Seqr := .tsq p chan
  let f1 := f.updWork w eid fun k =>
    let runs := k.runs.modify i fun x => { x with done := true, st := st, data := data }
    let r := k.runs.getD i { addr := 0, local_ := 0, bytes := 0 }
    let last := !runs.any fun x => x.win == r.win && !x.done
    let first := (k.chunks.findIdx? fun c => c.needs r).getD 0
    let k1 := if st == .ok || st == .poison then k else k.noteSeq st info first
    { k1 with runs := runs, wins := if last then k.wins.modify r.win fun x => { x with locks := [] } else k.wins }
  match f1.entry w eid with
  | some e => if e.aborted then f1.settled w eid .ok 0 else f1.pumpChunks p chan eid
  | none => f1

/-! ## Completion of contributions (R242) -/

/-- The range of a tree's chunks an NI may send: below f + `NBUF` (13 R308). -/
def Fabric.redLow (f : Fabric) (p tree : Nat) : Nat := ((f.ni p).ini.redLow.get tree (0, [])).1

/-- Consumed chunks that continue the run from the lowest one not consumed. -/
def advanceLow : Nat → Nat × List Nat → Nat × List Nat
  | 0, x => x
  | n + 1, (k, l) => if l.contains k then advanceLow n (k + 1, l.filter (· != k)) else (k, l)

/-- The `RD_DONE` of a chunk's main pass has been consumed; after the last chunk of the vector a
new round begins. -/
def Fabric.redConsumed (f : Fabric) (p tree k : Nat) : Fabric :=
  let w2 := f.treeW p tree 2
  let n := ceilDiv (f.treeW p tree 7).toNat (twChunk w2)
  f.updNi p fun x =>
    let (lo, l) := x.ini.redLow.get tree (0, [])
    let r := if k < lo || l.contains k then (lo, l) else advanceLow (l.length + 1) (lo, k :: l)
    { x with ini := { x.ini with redLow := x.ini.redLow.put tree (if r.1 ≥ n then (0, []) else r) } }

/-- Contributions of chunk k of a tree that have been injected and not completed. -/
def Ni.redFlight (n : Ni) (tree k : Nat) : Nat :=
  ((n.tsq.chans.flatMap fun c => c.2.queue.filter fun e =>
    e.started && opcOf e.op == ocReduce && rdTree e.op == tree).flatMap fun e =>
      e.work.chunks.filter fun c => c.k == k && c.sent && !c.done).length

/-- A contribution ends with a status. -/
def Fabric.settleChunk (f : Fabric) (p chan eid i : Nat) (st : Status) (info : BitVec 48) : Fabric :=
  let w : Seqr := .tsq p chan
  match f.entry w eid with
  | none => f
  | some e =>
    match e.work.chunks[i]? with
    | none => f
    | some c =>
      let info := if st == .saturated then BitVec.ofNat 48 c.eoff.toNat else info
      let good := st == .ok || st == .poison || st == .saturated
      let f1 := f.updWork w eid fun k => { (k.noteSeq st info i) with
        committed := k.committed + (if good then c.len else 0)
        chunks := k.chunks.modify i fun x => { x with done := true } }
      f1.settled w eid .ok 0

/-- The maxima of the anchor pass have arrived: the main pass follows at the head of its queue. -/
def Fabric.mainPass (f : Fabric) (p chan eid i : Nat) (anchors : Bytes) : Fabric :=
  let w : Seqr := .tsq p chan
  match f.entry w eid with
  | none => f
  | some e =>
    match e.work.chunks[i]? with
    | none => f
    | some c =>
      if e.aborted then f.settled w eid .ok 0
      else
        let c1 : Chunk := { c with pass := 2, anchors := anchors.take (ceilDiv c.ecnt 32) }
        let o := f.contrib p chan e i c1 false
        let f1 := f.updChunk p chan eid i fun _ => c1
        f1.setInjQ p chan ({ o with at_ := f.time.fcc } :: f1.injQ p chan)

end Sys2Proof.Machine
end

