-- ==== Sys2Proof/Machine/Answers.lean ====
section
/-! DEFINITION. Answers at an initiator: matching, consumption, and what each purpose does with its
answer; initiator timers; packets refused at injection (03 R77, R80; 04 R92, R93; 05 R124; 08 R191,
R195-R197; 09 R211, R223; 10 R242). -/

namespace Sys2Proof.Machine

/-! ## What an answer frees (05 R124; 13 R301) -/

/-- The injection window after an answer with an echo. DEDUCED (log entry 107). -/
def WinState.answered (w : WinState) (d c : Nat) (echo : BitVec 2) (ctl : Word) (now u : Nat) : WinState :=
  let wmax := fld ctl 31 20
  let wmin := max 33 (fld ctl 19 8)
  let hold := max 1 (fld ctl 7 0)
  let w1 := { w with infl := w.infl.upd d 0 (· - c) }
  let win := w.win.get d 0x400
  if echo != 0 then
    if now ≥ w.holdUntil.get d 0 then
      { w1 with win := w1.win.put d (max wmin (win / 2)), halves := w1.halves.upd d 0 (· + 1)
                holdUntil := w1.holdUntil.put d (now + 8 * hold * u) }
    else w1
  else { w1 with win := w1.win.put d (min wmax (win + 1)) }

/-- An entry leaves the table without an answer: its charge is released, the window unchanged. -/
def Fabric.freeEntry (f : Fabric) (p : Nat) (o : OrtEntry) : Fabric :=
  f.updNi p fun n => { n with
    wnd := { n.wnd with infl := n.wnd.infl.upd o.die 0 (· - o.charge) }
    ini := { n.ini with ort := n.ini.ort.erase o, pool := n.ini.pool - o.pool } }

/-- An answer is consumed: window, Answer Pool, latency and count; the entry is freed. The answer of a
packet that was not charged moves no window: DESIGN CHOICE (log entry 178). -/
def Fabric.consumeEntry (f : Fabric) (p : Nat) (o : OrtEntry) (a : Packet) : Fabric :=
  let h := a.hdr
  let used := min o.pool h.len.toNat
  let f1 := f.updNi p fun n => { n with
    wnd := if o.charge = 0 then n.wnd
      else n.wnd.answered o.die o.charge h.echo (f.niReg p 0x300) f.time.fcc f.unit
    ini := { n.ini with
      ort := n.ini.ort.erase o, pool := n.ini.pool - (o.pool - used)
      poolFlits := n.ini.poolFlits ++ (Packet.flits a).take used } }
  let f2 := if statusOfHdr h == .ok then f1 else f1.niErr p 7
  f2.niLat p (match o.purpose with | .load .. => 1 | _ => 0) ((f.time.fcc - o.since) / f.unit)

/-- `INFO` of a status that an answer carries (07 R171). DEDUCED (log entries 22, 23). -/
def answerInfo (o : OrtEntry) (h : Header) (st : Status) : BitVec 48 :=
  match st with
  | .malformed => BitVec.ofNat 48 (o.req.op.toNat + 0x300)
  | .fenced => BitVec.ofNat 48 (2 ^ 32 + fld h.src 25 0)
  | .timeout => infoPort (if h.kind == 6 then fld h.src 9 0 else o.req.rport.toNat) h.seq
  | .targetOff | .domainDeny | .unreachable | .linkFail | .poison | .partPoison => infoPort (fld h.src 9 0) h.seq
  | _ => 0

/-! ## Endings by purpose -/

/-- A source read of an `MCAST` or a `REDUCE` ends. -/
def Fabric.settleRead (f : Fabric) (p chan eid i : Nat) (st : Status) (info : BitVec 48) (data : Bytes) : Fabric :=
  match f.entry (.tsq p chan) eid with
  | some e => if opcOf e.op == ocReduce then f.settleRedRead p chan eid i st info data
              else f.settleMcRead p chan eid i st info data
  | none => f

/-- A contribution ends; one that made no main pass is no longer waiting for injection. -/
def Fabric.endChunk (f : Fabric) (p chan eid i : Nat) (st : Status) (info : BitVec 48) : Fabric :=
  let w : Seqr := .tsq p chan
  let early := match f.entry w eid with
    | some e => ((e.work.chunks[i]?).map fun (c : Chunk) => decide (c.pass < 3)).getD false && !e.aborted
    | none => false
  let f1 := f.settleChunk p chan eid i st info
  if early then (f1.updWork w eid Work.oneGone).checkIssued w eid else f1

/-- One part of a load-path access ends; with the last one the engine is answered (01 R444), with the
bytes that arrived in the order of the parts. DESIGN CHOICE (log entry 171). -/
def Fabric.settleLoad (f : Fabric) (p engine part : Nat) (tag : BitVec 12) (st : Status) (data : Bytes) : Fabric :=
  f.updNi p fun n =>
    match takeFirst (fun a => a.engine == engine && a.tag == tag) n.core.loads with
    | none => n
    | some (a, rest) =>
      let a1 := { a with need := a.need - 1, got := a.got.put part data, st := Status.join a.st st }
      if a1.need = 0 then
        { n with core := { n.core with loads := rest
                                       engineRsp := n.core.engineRsp ++ [(engine, a1.st, (a1.got.map (·.2)).flatten)] } }
      else { n with core := { n.core with loads := n.core.loads.map fun x => if x == a then a1 else x } }

/-- A multicast run ends without its answers: copies that still wait are withdrawn with it. DESIGN CHOICE
(log entry 164). -/
def Fabric.endMc (f : Fabric) (p : Nat) (u : Purpose) (tag : BitVec 12) (seq : BitVec 16) (st : Status) (info : BitVec 48) : Fabric :=
  let copy (o : OutPkt) : Bool := o.purpose == some u && o.pkt.hdr.tag == tag && o.pkt.hdr.seq == seq
  let open_ := (f.ni p).ini.ort.any fun o => o.tag == tag && o.seq == seq && o.req.kind == 5 && o.local_ > 0
  let f1 := f.updNi p fun n => { n with inj := { n.inj with queues := n.inj.queues.mapAll fun _ l => l.filter fun o => !copy o } }
  let f2 := if open_ then f1.mcAllGone p { pkt := { hdr := { tag := tag } }, purpose := some u } else f1
  f2.updMc p tag seq fun o => { (o.count st 0 0 (BitVec.allOnes 26) info) with need := 0, fwdNeed := 0, local_ := 0 }

/-- A packet whose answer is `st` ends, unless it was a lookup. -/
def Fabric.settleBase (f : Fabric) (p : Nat) (u : Purpose) (tag : BitVec 12) (seq : BitVec 16) (st : Status)
    (info : BitVec 48) (data : Option Bytes) : Fabric :=
  match u with
  | .run c e i => f.settleRun p c e i st info data
  | .walk c e w d page => f.walkDone p c e w d page none
  | .load en part => f.settleLoad p en part tag st (data.getD [])
  | .tree c e => f.finish (.tsq p c) e st info
  | .mcRead c e i => f.settleRead p c e i st info (data.getD [])
  | .chunk c e i => f.endChunk p c e i st info
  | .mcRun .. => f.endMc p u tag seq st info
  | .mcRelay => f.endMc p u tag seq st info
  | .dir .. => f
  | .grp .. => f
  | .rdRelay .. => f

/-! ## Refusal at injection (03 R80; 07 R173; 19 R406) -/

/-- `INFO` of a refusal at injection. DEDUCED (log entry 22). -/
def refuseInfo (f : Fabric) (p : Nat) (h : Header) (st : Status) : BitVec 48 :=
  if st == .fenced then BitVec.ofNat 48 (2 ^ 32 + fld (f.srcOf p) 25 0)
  else if st == .timeout then infoPort h.rport.toNat h.seq
  else infoPort p h.seq

/-- A packet that is not a lookup, taken from its queue, is refused. -/
def Fabric.refusePkt (f : Fabric) (p : Nat) (o : OutPkt) (st : Status) : Fabric :=
  let h := o.pkt.hdr
  let f1 := f.niErr p 6
  let info := refuseInfo f p h st
  match o.purpose with
  | none =>
    let f2 := if isAnswerKind h.kind.toNat then f1.raiseNi p .rspDrop (infoDrop h st)
      else if h.kind == 4 then (f1.niErr p 3).raiseNi p .sigDrop (infoDrop h st)
      else f1
    if f.kind p == 3 && isFwdReq h then
      if st == .fenced then (f1.niErr p 2).gwRelease p o.pkt else (f1.gwAnswer p h st).gwRelease p o.pkt
    else if f.kind p == 3 && h.cls == 5 && isAnswerKind h.kind.toNat then f2.updNi p fun n =>
      { n with gw := { n.gw with inAnswers := n.gw.inAnswers - o.need } }
    else if o.need > 0 then f2.freeDat p (o.need - 1) else f2
  | some (.run c e i) =>
    if h.kind == 4 then
      let w := seqOf p c
      let f2 := (f1.niErr p 3).raiseNi p .sigDrop (infoDrop h st)
      let aborted := ((f.entry w e).map (·.aborted)).getD true
      let f3 := f2.finish w e st info
      if aborted then f3 else f3.halt w
    else
      let w : Seqr := .tsq p c
      ((f1.updWork w e Work.oneGone).settleRun p c e i st info none).checkIssued w e
  | some (.mcRun ..) => f1.mcRefuse p o st
  | some .mcRelay => f1.mcRefuse p o st
  | some (.rdRelay node _) => (f1.gwRelease p { o.pkt with hdr := { h with src := BitVec.ofNat 28 (node * 1024) } }).raiseNi p
      .rdRelayFail (h.group.toNat * 2 ^ 16 + node)
  | some u => f1.settleBase p u h.tag h.seq st info none

/-! ## Lookups (04 R92, R93; 09 R211) -/

/-- The packets that wait for an identifier's answer, looked up under an epoch (R92). -/
def OutPkt.waitsFor (o : OutPkt) (i : BitVec 15) (ep : BitVec 1) : Bool :=
  o.dirWait && o.missEp == ep && o.pkt.hdr.dmode == 1 && fld o.pkt.hdr.dest 14 0 == i.toNat

/-- A directory answer to a lookup made under `ep`, read in epoch e: the Route Cache is filled and the
packets go on at step 4 of R83 with its port, or each is refused (R93). -/
def Fabric.dirDone (f : Fabric) (p : Nat) (i : BitVec 15) (ep : BitVec 1) (st : Status) (word : Option Word) (e : BitVec 1) : Fabric :=
  match word with
  | some w =>
    let go (_ : Nat) (l : List OutPkt) : List OutPkt :=
      l.map fun o => if o.waitsFor i ep then { o with dirWait := false, port := some (fld w 9 0) } else o
    f.updNi p fun n =>
      let put := cachePut n.ini.rc (fun k => k % 64 == i.toNat % 64) 8
        { key := i.toNat, words := [w], epoch := e, stamp := n.ini.stamp + 1 }
      { n with ini := { n.ini with rc := put, stamp := n.ini.stamp + 1 }
               inj := { n.inj with queues := n.inj.queues.mapAll go } }
  | none =>
    let waiting := (f.ni p).inj.queues.flatMap fun q => (q.2.filter fun o => o.waitsFor i ep).map fun o => (q.1, o)
    waiting.foldl (fun g x => (g.setInjQ p x.1 ((g.injQ p x.1).erase x.2)).refusePkt p x.2 st) f

/-- A relay goes on with the group entry of its node, or refuses the packet it received (R224). -/
def Fabric.relayGo (f : Fabric) (p : Nat) (x : Packet) (ws : List Word) : Fabric :=
  let h := x.hdr
  let bad : Option Status := if !grpValid ws then some .unreachable
    else if grpDomain ws != h.domain.toNat then some .domainDeny else none
  match bad with
  | some st =>
    ((f.gwAnswer p h st).gwRelease p x).raiseNi p .mcRelayFail (h.group.toNat * 2 ^ 16 + nodeOf h.src)
  | none =>
    let (t, f1) := f.takeTag p
    let h1 : Header := { cls := 4, kind := 5, op := h.op, domain := h.domain, dmode := 2, trace := h.trace
                         dest := BitVec.ofNat 28 (f.node p * 1024), src := f.srcOf p, group := h.group, tag := t
                         addr := h.addr, bcnt := h.bcnt, len := h.len, pmask := BitVec.ofNat 4 (grpPmask ws)
                         colour := h.colour }
    (f1.updNi p fun n => { n with gw := { n.gw with
      relays := n.gw.relays ++ [(t.toNat, x)], relayed := n.gw.relayed + 1 } }).enqueue p (32 + h.domain.toNat)
      { pkt := { hdr := h1, aux := BitVec.ofNat 256 (grpMask ws), body := x.body }, purpose := some .mcRelay
        need := grpNleaf ws }

/-- A group answer to a lookup made under `ep`, read in epoch e: the Group Cache is filled, and the ops
and relays that wait go on. -/
def Fabric.grpDone (f : Fabric) (p : Nat) (g : BitVec 12) (ep : BitVec 1) (st : Status) (ws : List Word) (e : BitVec 1) : Fabric :=
  let good := grpValid ws
  let f1 := if good then f.updNi p fun n => { n with ini := { n.ini with
      gc := cachePut n.ini.gc (fun _ => true) 32 { key := g.toNat, words := ws, epoch := e, stamp := n.ini.stamp + 1 }
      stamp := n.ini.stamp + 1 } } else f
  let ops := f1.mcWaiting p g.toNat ep
  let f2 := ops.foldl (fun h x =>
    if st == .timeout then
      (h.updChan (.tsq p x.1) fun c => { c with reason := if c.halted then 8 else 0 }).finish (.tsq p x.1) x.2 .timeout
        (infoPort (dirPort (dieOfPort p)) 0)
    else h.mcastGo p x.1 x.2 ws) f1
  let held := (f2.ni p).gw.relays.filter fun x => x.1 == relayKey g.toNat ep
  held.foldl (fun h x => (h.updNi p fun n => { n with gw := { n.gw with relays := n.gw.relays.erase x } }).relayGo p x.2 ws) f2

/-- An entry ends with a status; lookups included. -/
def Fabric.settleEnd (f : Fabric) (p : Nat) (u : Purpose) (tag : BitVec 12) (seq : BitVec 16) (st : Status)
    (info : BitVec 48) (data : Option Bytes) (e : BitVec 1) : Fabric :=
  match u with
  | .dir i ep =>
    let w := BitVec.ofNat 32 (ofBytesLE (data.getD []))
    if st == .ok && data.isSome && bit w 31 then f.dirDone p i ep .ok (some w) e
    else f.dirDone p i ep (if st == .timeout then .timeout else .unreachable) none e
  | .grp g ep =>
    let ws := if st == .ok then (List.range 16).map fun i => BitVec.ofNat 32 (ofBytesLE (sliceBytes (data.getD []) (4 * i) 4))
      else []
    f.grpDone p g ep st ws e
  | _ => f.settleBase p u tag seq st info data

/-- A packet taken from its queue is refused at injection, lookups included. -/
def Fabric.refuseOut (f : Fabric) (p : Nat) (o : OutPkt) (st : Status) : Fabric :=
  match o.purpose with
  | some (.dir i ep) => (f.niErr p 6).dirDone p i ep .unreachable none f.epoch
  | some (.grp g ep) => (f.niErr p 6).grpDone p g ep .unreachable [] f.epoch
  | _ => f.refusePkt p o st

/-! ## Matching (03 R77; 16 R365) -/

/-- The case of an answer that matches no entry. -/
def Ni.unmatchedCase (n : Ni) (tag : BitVec 12) : Nat :=
  if n.ini.heldTags.any fun x => x.1 == tag then 2 else if n.usedTags.contains tag then 1 else 0

/-- An answer that matches no entry is discarded. -/
def Fabric.unmatched (f : Fabric) (p : Nat) (h : Header) : Fabric :=
  (f.niErr p 0).raiseNi p .rspUnmatched
    (h.seq.toNat * 2 ^ 32 + h.tag.toNat * 2 ^ 20 + (f.ni p).unmatchedCase h.tag * 2 ^ 16 + fld h.src 9 0)

/-- An answer of another domain is discarded and its entry stays open. -/
def Fabric.wrongDomain (f : Fabric) (p : Nat) (h : Header) : Fabric :=
  (f.niErr p 1).raiseNi p .rspDomain (h.domain.toNat * 2 ^ 42 + h.tag.toNat * 2 ^ 20 + fld h.src 9 0)

/-- The entry a unicast answer matches: equal `TAG` and `SEQ`, of a request answered by its kind; one of
another kind matches none. DESIGN CHOICE (log entry 173). -/
def OrtEntry.matches (o : OrtEntry) (h : Header) : Bool :=
  o.tag == h.tag && o.seq == h.seq && o.red == (h.kind == 8) && answerKind o.req.kind.toNat == some h.kind.toNat

/-- A multicast answer is counted (09 R223). -/
def Fabric.countAck (f : Fabric) (p : Nat) (o : OrtEntry) (a : Packet) : Fabric :=
  let h := a.hdr
  let st := statusOfHdr h
  let f1 := if st == .ok then f else f.niErr p 7
  let used := min o.pool 1
  let f2 := f1.updNi p fun n => { n with ini := { n.ini with poolFlits := n.ini.poolFlits ++ (Packet.flits a).take used } }
  f2.updMc p h.tag h.seq fun x =>
    let y := { x with pool := x.pool - used }
    let c := y.count st (if h.cls == 5 then 0 else ackNack a.aux) (ackNfenced a.aux) (ackLow a.aux) (answerInfo o h st)
    if h.cls == 5 then { c with fwdNeed := c.fwdNeed - 1 } else c

/-- A walk answer is taken: one that breaks the protocol counts as `VALID` = 0 (R191; 16 R365). One
sent before a withdrawal notice is discarded and the walk is sent again. -/
def Fabric.takeWalk (f : Fabric) (p c e w : Nat) (d : BitVec 6) (page : BitVec 36) (stale : Bool) (a : Packet) : Fabric :=
  if stale then f.pumpWalks p
  else if statusOfHdr a.hdr != .ok then f.walkDone p c e w d page none
  else match walkEntry a with
    | none => (f.raiseNi p .xlateProtocol (fld a.hdr.src 9 0 + d.toNat * 2 ^ 42)).walkDone p c e w d page none
    | some (v, wp, frame) => f.walkDone p c e w d page (if v then some (wp, frame) else none)

/-- A `WR_ACK` of committed bytes that does not carry its request's `BCNT` (03 R75 rule 4). -/
def OrtEntry.miscounts (o : OrtEntry) (h : Header) : Bool :=
  h.kind == 3 && (h.status == 0 || h.status == 2) && h.bcnt != o.req.bcnt

/-- An answer other than an `RD_DONE` arrives at its initiator. -/
def Fabric.takeAnswer (f : Fabric) (p : Nat) (a : Packet) : Fabric :=
  let h := a.hdr
  if badHeader h then f.raiseNi p .rspDrop (infoDrop h .malformed)
  else match (f.ni p).ini.ort.find? fun o => o.matches h with
  | none => f.unmatched p h
  | some o =>
    if o.dom != h.domain then f.wrongDomain p h
    else if o.miscounts h then f.raiseNi p .rspDrop (infoDrop h .malformed)
    else if h.kind == 6 then f.countAck p o a
    else
      let st := statusOfHdr h
      let f1 := f.consumeEntry p o a
      let data := if h.kind == 2 && (st == .ok || st == .poison) then some a.body else none
      match o.purpose with
      | .walk c e w d page => f1.takeWalk p c e w d page (o.nack == 1) a
      | u => f1.settleEnd p u o.tag o.seq st (answerInfo o h st) data o.req.epoch

/-- The answers that ANSWER_CONSUME takes: at a gateway those of its own requests only. -/
def Fabric.takesAnswer (f : Fabric) (p : Nat) (h : Header) : Bool :=
  (h.kind == 2 || h.kind == 3 || h.kind == 6) && !(f.kind p == 3 && h.cls == 5)

/-- ANSWER_CONSUME (03 R77). -/
def execAnswerConsume (port : Nat) (s : State) : Host.Outcome State Fault Refusal :=
  s.run fun f => f.when (f.moving && f.kind port != 0 && f.powered port) <|
    fun f => f.niTake port (fun q => f.takesAnswer port q.hdr) fun f a _ => f.takeAnswer port a

/-- WALK_ANSWER (08 R191): the translation service's answer arrives. -/
def execWalkAnswer (port : Nat) (ans : Packet) (s : State) : Host.Outcome State Fault Refusal :=
  s.run fun f => f.when (f.moving && f.kind port == 1 && f.powered port && ans.hdr.kind == 2) <|
    fun f => (f.niCount port 1 ans.hdr).takeAnswer port ans

/-- RD_DONE_CONSUME (10 R242): every contribution of the chunk completes, or goes on to its main
pass. A copy for the root port is no answer to its member. -/
def Fabric.takeDone (f : Fabric) (p : Nat) (a : Packet) : Fabric :=
  let h := a.hdr
  let m := redOf a.aux
  let st := statusOfHdr h
  if doneBad h m then f.raiseNi p .rspDrop (infoDrop h .malformed)
  else
    let es := (f.ni p).ini.ort.filter fun o => o.matches h
    if es.isEmpty then f.unmatched p h
    else if es.any fun o => o.dom != h.domain then f.wrongDomain p h
    else
      let f1 := es.foldl (fun g o => g.consumeEntry p o a) f
      let info (o : OrtEntry) := answerInfo o h st
      if m.rop == 7 then
        es.foldl (fun g o => match o.purpose with
          | .chunk c e i => if st == .ok then g.mainPass p c e i a.area else g.endChunk p c e i st (info o)
          | _ => g) f1
      else
        let rfmt := h.fmt.toNat
        let f2 := if a.body.isEmpty then f1
          else f1.lmWrite p (h.addr.toNat + elemBytes rfmt m.eoff.toNat) a.body
        let f3 := f2.redConsumed p h.tag.toNat h.seq.toNat
        es.foldl (fun g o => match o.purpose with
          | .chunk c e i => g.endChunk p c e i st (info o)
          | _ => g) f3

/-- The copy of a result that a leaf slot of the stop waits for is the root port's (10 R240). -/
def Fabric.rootCopy (f : Fabric) (p : Nat) (q : QPkt) : Bool :=
  match (f.stopU (stopOfPort p)).leaf.find? q.side.toNat with
  | some l => l.hdr.kind == 8 && l.hdr.tag == q.hdr.tag && l.hdr.seq == q.hdr.seq && l.root.isSome &&
      (l.got.find? (localOfPort p)).isNone
  | none => false

/-- RD_DONE_CONSUME (10 R242). -/
def execRdDoneConsume (port : Nat) (s : State) : Host.Outcome State Fault Refusal :=
  s.run fun f => f.when (f.moving && f.kind port == 1 && f.powered port) <|
    fun f => f.niTake port (fun q => q.hdr.kind == 8 && !f.rootCopy port q) fun f a _ => f.takeDone port a

/-! ## Timers (R195, R197) -/

/-- A tag is held after a timeout for twice the limit. DEDUCED (log entry 136). -/
def Initiator.holdTag (i : Initiator) (tag : BitVec 12) (until_ : Nat) : Initiator :=
  { i with heldTags := (i.heldTags.filter fun x => x.1 != tag) ++
      [(tag, max until_ (((i.heldTags.find? fun x => x.1 == tag).map (·.2)).getD 0))] }

/-- A complete answer for the entry waits in the receive buffer: it wins. -/
def Ni.answerWaits (n : Ni) (o : OrtEntry) : Bool :=
  n.vq.any fun v => v.2.any fun q => q.tailIn && o.matches q.hdr && o.dom == q.hdr.domain

/-- INITIATOR_TIMEOUT (R195): one entry's timer expires. -/
def execInitiatorTimeout (port : Nat) (red : Bool) (tag : BitVec 12) (seq : BitVec 16) (s : State) :
    Host.Outcome State Fault Refusal :=
  s.run fun f => f.when (f.moving && f.kind port != 0 && f.powered port) <|
    fun f =>
      let n := f.ni port
      match n.ini.ort.find? fun o => o.red == red && o.tag == tag && o.seq == seq && o.limit != 0 &&
          f.due (o.since + o.limit * f.unit) && !n.answerWaits o with
      | none => f
      | some o =>
        let f0 := f.reach (o.since + o.limit * f.unit)
        let f1 := (f0.updNi port fun n => { n with ini := n.ini.holdTag tag (f0.time.fcc + 2 * o.limit * f.unit) }).niErr port 5
        let f2 := f1.raiseNi port .rspTimeout (seq.toNat * 2 ^ 32 + tag.toNat * 2 ^ 20 + o.req.rport.toNat)
        let info := infoPort o.req.rport.toNat seq
        match o.purpose with
        | .mcRun .. => f2.settleBase port o.purpose tag seq .timeout info none
        | .mcRelay => f2.settleBase port o.purpose tag seq .timeout info none
        | u => (f2.freeEntry port o).settleEnd port u tag seq .timeout info none f.epoch

/-! ## The Answer Pool of T1 (13 R301) -/

/-- ANSWER_POOL_RELEASE (R301): the oldest answer flit in the pool has been written. -/
def execAnswerPoolRelease (port : Nat) (s : State) : Host.Outcome State Fault Refusal :=
  s.run fun f => f.when (f.moving && f.variant == .t1 && f.kind port == 1 && f.powered port) <|
    fun f => f.updNi port fun n => match n.ini.poolFlits with
      | [] => n
      | _ :: rest => { n with ini := { n.ini with poolFlits := rest, pool := n.ini.pool - 1 } }

end Sys2Proof.Machine
end

