-- ==== Sys2Proof/Machine/TimeAlign.lean ====
section
/-! DEFINITION. The time base: ticks, count frames, milestone trees, alignment and the time
registers (02). -/

namespace Sys2Proof.Machine

/-! ## Shared operations -/

/-- Bring-up stops at the step in progress (18 R403). -/
def Fabric.bootStop (f : Fabric) (reason die info : Nat) : Fabric :=
  f.updBoot fun b => { b with fail := true, reason := BitVec.ofNat 8 reason
                              die := BitVec.ofNat 2 die, info := BitVec.ofNat 16 info }

/-- Bring-up step s, from 5 to 9, begins (18 R391). -/
def Fabric.bootStep (f : Fabric) (s : Nat) : Fabric :=
  f.updBoot fun b => { b with latch := BitVec.ofNat 4 s, ms := b.ms.put s (BitVec.ofNat 32 f.msc) }

/-- Time reaches an instant of the alignment logic, which counts at the full rate (02 R43), if it is
due (log entry 9). -/
def Fabric.reachDue (f : Fabric) (t : Nat) : Fabric :=
  if f.due t && f.time.fcc < t then (f.reach (t / f.unit * f.unit)).updTime fun x => { x with fcc := t } else f

/-- CRC-8 of 40 bits, most significant first: x^8 + x^2 + x + 1, initially 0 (02 R36). -/
def crc8 (v : BitVec 40) : BitVec 8 :=
  (List.range 40).foldl (fun c i =>
    let top := bit c 7 != v.getLsbD (39 - i)
    (c <<< 1) ^^^ (if top then 0x07 else 0)) 0

/-- A signed number held within ±limit. -/
def clampAbs (limit x : Int) : Int := max (-limit) (min limit x)

/-- A signed number as w bits of two's complement. -/
def signedBits (w : Nat) (x : Int) : Nat := (BitVec.ofInt w x).toNat

/-- The half-width of the in-phase window (02 R50). -/
def Time.window (t : Time) : Int := max 2 t.phaseWin.toNat

/-- Whether a phase lies within the window (02 R46). -/
def Time.inPhase (t : Time) (phase : Int) : Bool := decide (phase.natAbs ≤ t.window.toNat)

/-- Difference of a delivered count and the local one, saturating at 32 bits (02 R48). -/
def offsetOf (delivered localMsc : Nat) : Int :=
  max (-2147483648) (min 2147483647 ((delivered : Int) - localMsc))

/-! ## Alignment (02 R42-R45) -/

/-- The result of a die's alignment is published in its skew register. -/
def Fabric.publishSkew (f : Fabric) (d attempts : Nat) (skew : Int) (rtt : Nat) : Fabric :=
  f.updAux fun a => { a with skews := a.skews.upd d {} fun r =>
    { valid := true, seq := r.seq + 1, attempts := BitVec.ofNat 4 attempts
      skew := BitVec.ofInt 4 skew, rtt := BitVec.ofNat 16 rtt } }

/-- What a bridge measures for X: 11 to 23 fc (06 R137). -/
def crossX (x : Nat) : Nat := max 11 (min 23 x)

/-- After an alignment every trained bridge measures X anew, by as much as the skews of its two dies have
changed, and sets `PAD` (06 R137). DEDUCED (log entry 163). -/
def Fabric.repad (f : Fabric) (was : NMap Int) : Fabric :=
  { f with stops := f.stops.mapAll fun s x => { x with rx := x.rx.mapAll fun i r =>
      let a := dieOfStop s
      let b := dieOfStop (f.nbr s (opposite i))
      let moved : Int := (f.time.skew.get a 0 - was.get a 0) - (f.time.skew.get b 0 - was.get b 0)
      let x := crossX ((r.xMeas : Int) + moved).toNat
      if i < 4 && a != b && r.pad.isSome then { r with xMeas := x, pad := some (BitVec.ofNat 5 (23 - x)) } else r } }

/-- Every die is aligned: `ALIGNED` is set and, during bring-up, link training begins. D0 publishes one
attempt. DESIGN CHOICE (log entry 158). -/
def Fabric.alignDone (f : Fabric) : Fabric :=
  let f1 := (f.updTime fun t => { t with aligned := true }).repad f.taux.align.was
  let f2 := f1.updAux fun a => { a with align := { a.align with phase := .done } }
  let f3 := (f2.publishSkew 0 1 0 0).updFmu fun m => { m with dig := { m.dig with dsrValid := false } }
  if f3.boot.latch == 4 && !f3.boot.fail then f3.bootStep 5 else f3

/-- Alignment goes on with die d, or is done when no die is left. -/
def Fabric.alignDie (f : Fabric) (d : Nat) : Fabric :=
  if d < nDies f.variant then
    f.updAux fun a => { a with align := { a.align with
      phase := .echo d, attempts := 1, treeB := f.time.treeForceB, thetas := [] } }
  else f.alignDone

/-- A die fails to align (02 R45). Bring-up stops only while it is at step 4. -/
def Fabric.alignFail (f : Fabric) (d attempts reason info : Nat) : Fabric :=
  let f1 := f.raiseFmu .alignFail (d + attempts * 16)
  let f2 := f1.updAux fun a => { a with align := { a.align with phase := .idle } }
  if f2.boot.latch == 4 then f2.bootStop reason d info else f2

/-- The first labelled tick loads D0 with the frame's count (02 R42 steps 1-2, R50). Nothing aligns
once bring-up has stopped (18 R403). DEDUCED (log entry 147). -/
def Fabric.alignStart (f : Fabric) : Fabric :=
  if f.boot.fail then f else
  match f.taux.align.phase, f.taux.frame with
  | .waitTick, some v =>
    let f1 := f.updTime fun t => { t with fcc := v.toNat * msLen, booked := v.toNat, offset := 0 }
    (f1.updAux fun a => { a with frame := none }).alignDie 1
  | _, _ => f

/-- θ of one exchange, rounded toward zero (02 R42 step 4). -/
def theta (t1 t2 t3 t4 : Int) : Int := Int.tdiv ((t2 - t1) - (t4 - t3)) 2

/-- The greatest magnitude among the θ values. -/
def thetaMax (ts : List Int) : Nat := ts.foldl (fun m x => max m x.natAbs) 0

/-- The skew of a die: the θ of greatest magnitude. Where both signs occur, the specification
does not say which is taken: a free value decides. DESIGN CHOICE (log entry 27). -/
def thetaSkew (ts : List Int) (neg : Bool) : Int :=
  let m : Int := thetaMax ts
  if ts.contains m && ts.contains (-m) then (if neg then -m else m)
  else if ts.contains m then m else -m

/-! ## Meanings -/

/-- COUNT_FRAME (02 R36, R48, R51). -/
def execCountFrame (frame : BitVec 48) (late : Bool) (s : State) : Host.Outcome State Fault Refusal :=
  s.run fun f => f.when f.live <|
    fun f =>
      let v := frame.extractLsb' 8 40
      if late || crc8 v != frame.extractLsb' 0 8 then
        let f1 := f.updTime fun t => { t with extValid := false }
        let f2 := f1.updAux fun a => { a with align := { a.align with framesBad := a.align.framesBad + 1 } }
        f2.raiseFmu .mscFrame f2.msc
      else
        let f1 := f.updTime fun t => { t with extValid := true, ext := v }
        let f2 := f1.updAux fun a => { a with frame := some v, align := { a.align with framesBad := 0 } }
        if f.time.aligned then
          let o := offsetOf v.toNat (f.msc + 1)
          let f3 := f2.updTime fun t => { t with offset := o }
          if o == 0 then f3 else f3.raiseFmu .mscMismatch (signedBits 32 o)
        else f2

/-- MS_TICK (02 R46, R47): a labelled tick starts alignment when it is awaited; once aligned, the
tick is judged against the local boundary. DEDUCED (log entry 81). -/
def execMsTick (phase : Int) (s : State) : Host.Outcome State Fault Refusal :=
  s.run fun f => f.when f.live <|
    fun f =>
      let f0 := f.alignStart.updAux fun a => { a with frame := none }
      if !f.time.aligned then f0
      else if f.time.inPhase phase then
        (f0.updTime fun t => { t with holdover := false, missRun := 0, phaseErr := 0 }).updAux
          fun a => { a with tickSeen := true }
      else
        let e := clampAbs 32767 phase
        (f0.updTime fun t => { t with phaseErr := e }).raiseFmu .tickPhase (signedBits 16 e)

/-- The median of four values: the mean of the second and third in ascending order, rounded toward
zero (02 R42 step 5). -/
def thetaMedian (ts : List Int) : Int :=
  let x := ts.headD 0
  Int.tdiv (ts.foldl (· + ·) 0 - ts.foldl min x - ts.foldl max x) 2

/-- How the markers of the two trees compare: whether they disagree, and whether tree B is the one lost
(02 R49, R51). Two markers in the window agree, and so do two of one phase. DEDUCED (log entry 155). -/
def Time.compareTrees (t : Time) (a b : Option Int) : Bool × Bool :=
  match a, b with
  | some x, some y => (t.inPhase x != t.inPhase y || (!t.inPhase x && x != y), t.inPhase x)
  | some _, none => (true, true)
  | none, some _ => (true, false)
  | none, none => (false, false)

/-- TREE_MARKER (02 R49; 17 R379). DESIGN CHOICE (log entries 156, 180). -/
def execTreeMarker (die : Nat) (a b : Option Int) (s : State) : Host.Outcome State Fault Refusal :=
  s.run fun f => f.when (f.live && f.time.aligned && die < nDies f.variant) <|
    fun f =>
      let kept := (f.fmu.spares.find? fun r => r.1 == 6 && r.2.1 == die).map fun r => bit r.2.2.2 0
      match kept with
      | some t => f.updDie die fun x => { x with treeB := t }
      | none =>
        let (disagree, lostB) := f.time.compareTrees a b
        let f1 := if disagree then f.updDie die fun x => { x with treeB := !lostB }
          else if a.any f.time.inPhase then f.updDie die fun x => { x with treeB := false } else f
        if disagree && !(f.die die).treeRaised then
          ((f1.updDie die fun x => { x with treeRaised := true }).updTime
            fun t => { t with treeB := !lostB }).raiseDie die .treeFail (die + 16 * b2n lostB)
        else f1

/-- ALIGN_START (02 R42 steps 1-2). -/
def execAlignStart (s : State) : Host.Outcome State Fault Refusal :=
  s.run fun f => f.when f.live Fabric.alignStart

/-- ALIGN_ECHO (02 R42 step 3): the marker sent at a returns at b; the load word leaves at c and loads
the die with what it carries: the die starts with D0's count. DESIGN CHOICE (log entry 157). -/
def execAlignEcho (die a b c : Nat) (s : State) : Host.Outcome State Fault Refusal :=
  s.run fun f => f.when
    (f.live && f.taux.align.phase == .echo die && a ≤ b && b - a ≤ 4096 && b ≤ c) <|
    fun f => ((f.updAux fun x => { x with align := { x.align with
      phase := .exchange die, rtt := b - a, thetas := [], load := c + (b - a) / 2 } }).updTime
        fun t => { t with skew := t.skew.put die 0 }).reachDue c

/-- ALIGN_ECHO_TIMEOUT (02 R45; 18 R403). -/
def execAlignEchoTimeout (die : Nat) (s : State) : Host.Outcome State Fault Refusal :=
  s.run fun f => f.when (f.live && f.taux.align.phase == .echo die) <|
    fun f =>
      if f.taux.align.treeB then f.alignFail die f.taux.align.attempts 0x05 0
      else f.updAux fun x => { x with align := { x.align with treeB := true } }

/-- TIMESTAMP_EXCHANGE (02 R42 steps 4-6). DESIGN CHOICE (log entry 27). -/
def execTimestampExchange (die : Nat) (t1 t2 t3 t4 : Int) (s : State) :
    Host.Outcome State Fault Refusal :=
  s.run fun f => f.when (f.live && f.taux.align.phase == .exchange die) <|
    fun f0 =>
      let f := f0.reachDue t4.toNat
      let al := f.taux.align
      let ts := al.thetas ++ [theta t1 t2 t3 t4]
      if ts.length < 4 then f.updAux fun x => { x with align := { x.align with thetas := ts } }
      else if thetaMax ts ≤ 2 then
        let k := thetaSkew ts (Config.freeValue 1 f.freeCtr == 1)
        let f1 := f.draw.updTime fun t => { t with skew := t.skew.put die k }
        (f1.publishSkew die al.attempts k al.rtt).alignDie (die + 1)
      else if al.attempts < 3 then
        -- the die's count stands off by what was measured, and the slice subtracts the median
        let k := thetaSkew ts (Config.freeValue 1 f.freeCtr == 1)
        (f.draw.updTime fun t => { t with skew := t.skew.put die (k - thetaMedian ts) }).updAux
          fun x => { x with align := { x.align with attempts := al.attempts + 1, thetas := [] } }
      else f.alignFail die 3 0x03 3

/-- ALIGN_FRAME_TIMEOUT (18 R403, reason 0x02). -/
def execAlignFrameTimeout (s : State) : Host.Outcome State Fault Refusal :=
  s.run fun f => f.when
    (f.live && f.boot.latch == 4 && !f.boot.fail && f.taux.align.phase == .waitTick) <|
    fun f => f.bootStop 0x02 0 f.taux.align.framesBad

/-- A write of `REALIGN` = 1 (02 R50; 15 R348; 16 R368). -/
def Fabric.realign (f : Fabric) : Fabric :=
  let service := f.fmu.prog.open_ && f.crawl
  if (service || f.fmu.stop.stopped) && !f.fmu.turn.sealed_ then
    ((f.updTime fun t => { t with aligned := false }).updFmu fun m => { m with dig := { m.dig with dsrValid := false } }).updAux
      fun a => { a with align := { was := if f.time.aligned then f.time.skew else a.align.was } }
  else f.raiseFmu .timeRefused f.msc

/-- REALIGN (02 R50). -/
def execRealign (s : State) : Host.Outcome State Fault Refusal :=
  s.run fun f => f.onBus true Fabric.realign

/-- A read of `FMU_TIME_FCC_LO` captures D0's count (02 R41). -/
def Fabric.fccLoRead (f : Fabric) : Fabric :=
  let w := fccWord f.time.fcc
  { f with time := { f.time with fccHold := w.extractLsb' 32 32 },
           bus := { f.bus with rdata := w.extractLsb' 0 32, err := false } }

/-- FCC_LO_READ (02 R41). -/
def execFccLoRead (s : State) : Host.Outcome State Fault Refusal :=
  s.run fun f => if f.live then f.fccLoRead else f.busReply 0 true

/-- An acknowledge write of a skew register (02 R45). -/
def Fabric.skewAck (f : Fabric) (die : Nat) : Fabric :=
  f.when (die < nDies f.variant) fun f =>
    f.updAux fun a => { a with skews := a.skews.upd die {} fun r => { r with valid := false } }

/-- SKEW_ACK (02 R45). -/
def execSkewAck (die : Nat) (s : State) : Host.Outcome State Fault Refusal :=
  s.run fun f => f.onBus true fun f => f.skewAck die

end Sys2Proof.Machine
end

