-- ==== Sys2Proof/Machine/BringUp.lean ====
section
/-! DEFINITION. Reset, clocks, link training and the program FIFO (18; 17 R373, R384). -/

namespace Sys2Proof.Machine

/-! ## Reset and clocks (18 R388-R390, R402) -/

/-- Every unit and register at its reset value; what reset does not clear stays. -/
def Fabric.resetAll (f : Fabric) : Fabric :=
  { variant := f.variant
    boot := { pg := f.boot.pg, rstN := f.boot.rstN, latch := f.boot.latch, fail := f.boot.latch == 0xF
              lost := f.boot.lost, lastFail := f.boot.lastFail, inReset := true }
    dies := f.dies.mapAll fun _ d => { ({} : DieSlice) with pllLocked := d.pllLocked }
    freeCtr := f.freeCtr }

/-- Every FAB_PG bit is high; every PLL of a die present has locked. -/
def Fabric.railsGood (f : Fabric) : Bool := f.boot.pg == 0xF
def Fabric.pllsLocked (f : Fabric) : Bool := f.dieIds.all fun d => (f.die d).pllLocked

/-- The status latch tracks steps 1-3 while reset is held, unless it holds 0xF after a clock loss
or bring-up has stopped at step 2. -/
def Fabric.track (f : Fabric) : Fabric :=
  if f.boot.latch == 0xF || f.boot.fail then f
  else f.updBoot fun b => { b with
    latch := if !f.railsGood then 1 else if !f.pllsLocked then 2 else 3 }

/-- Reset ends once FAB_RST_N and every FAB_PG bit are high and every PLL has locked; bring-up goes
on to step 4, unless it has stopped at step 2, which `FMU_BOOT_STAT` then shows (R403).
DEDUCED (log entry 147). -/
def Fabric.tryRelease (f : Fabric) : Fabric :=
  if f.boot.inReset && f.boot.rstN && f.railsGood && f.pllsLocked && f.boot.latch != 0xF then
    f.updBoot fun b => { b with
      inReset := false, latch := if b.fail then b.latch else 4, lastFail := b.lost, lost := false }
  else f

/-- FAB_PG_CHANGE (18 R389). The package ties the bits of absent dies high. -/
def execFabPgChange (die : Nat) (high : Bool) (s : State) : Host.Outcome State Fault Refusal :=
  s.run fun f => f.when (die < nDies f.variant) <|
    fun f =>
      let m : BitVec 4 := BitVec.ofNat 4 (2 ^ die)
      if high then
        ((f.updBoot fun b => { b with pg := b.pg ||| m }).when f.boot.inReset Fabric.track).tryRelease
      else
        ((f.resetAll.updBoot fun b => { b with pg := b.pg &&& ~~~m }).updDie die
          fun d => { d with pllLocked := false }).track

/-- FAB_RST_ASSERT (18 R389). -/
def execFabRstAssert (s : State) : Host.Outcome State Fault Refusal :=
  s.run fun f =>
    let f1 := f.resetAll.updBoot fun b => { b with rstN := false, latch := 1, fail := false }
    f1.track

/-- FAB_RST_RELEASE (18 R390). -/
def execFabRstRelease (s : State) : Host.Outcome State Fault Refusal :=
  s.run fun f => (f.updBoot fun b => { b with rstN := true }).tryRelease

/-- PLL_LOCK (18 R390, R403). -/
def execPllLock (die : Nat) (s : State) : Host.Outcome State Fault Refusal :=
  s.run fun f => f.when (die < nDies f.variant && f.boot.inReset && f.railsGood) <|
    fun f => ((f.updDie die fun d => { d with pllLocked := true }).track).tryRelease

/-- PLL_LOCK_TIMEOUT (18 R403, reason 0x01). -/
def execPllLockTimeout (die : Nat) (s : State) : Host.Outcome State Fault Refusal :=
  s.run fun f => f.when
    (die < nDies f.variant && f.boot.inReset && f.railsGood && !(f.die die).pllLocked
      && f.boot.latch == 2) <|
    fun f => f.bootStop 0x01 die 0

/-- PLL_UNLOCK (18 R402, R403 reason 0x07): after step 3 the fabric enters reset and holds it. -/
def execPllUnlock (die : Nat) (s : State) : Host.Outcome State Fault Refusal :=
  s.run fun f => f.when (die < nDies f.variant) <|
    fun f =>
      if f.boot.inReset then (f.updDie die fun d => { d with pllLocked := false }).track
      else (f.resetAll.updDie die fun d => { d with pllLocked := false }).updBoot
        fun b => { b with latch := 0xF, fail := true, lost := true }

/-! ## Wires (05 R110, R117; 17 R373) -/

/-- Wires of a direction that carry a flit; spares come after them. -/
def wireCount (bridge : Bool) : Nat := if bridge then 282 else 1128

/-- The spares in use that can stand in for wire w: the same quarter on die, any on a bridge. -/
def sparesTaken (bridge : Bool) (used : List (Nat × Nat)) (w : Nat) : List Nat :=
  (used.filter fun u => bridge || u.2 % 4 == w % 4).map (·.1)

/-- The wire number of spare j for wire w (17 R373). -/
def spareWire (bridge : Bool) (j w : Nat) : Nat := if bridge then 282 + j else 1128 + 4 * j + w % 4

/-- The lowest free spare for wire w, passing over spares that are themselves failed. DEDUCED (log entry 149). -/
def freeSpare (bridge : Bool) (used : List (Nat × Nat)) (failed : List Nat) (w : Nat) : Option Nat :=
  (List.range 6).find? fun j =>
    !(sparesTaken bridge used w).contains j && !failed.contains (spareWire bridge j w)

/-- The wires of a list that fail and are not yet repaired, mapped one by one: the spares then in
use, and whether a wire found none. DEDUCED (log entry 149). -/
def mapWires (bridge : Bool) (failed : List Nat) (used : List (Nat × Nat)) :
    List (Nat × Nat) × Bool :=
  failed.foldl (fun (acc : List (Nat × Nat) × Bool) w =>
    if w ≥ wireCount bridge || acc.1.any (fun u => u.2 == w) then acc
    else match freeSpare bridge acc.1 failed w with
      | some j => (acc.1 ++ [(j, w)], acc.2)
      | none => (acc.1, true)) (used, false)

/-- The `SPARE` record of a wire: SPKIND 0x0, the receiving stop, 8·i + j and its SPEC (17 R384). -/
def wireRecord (stop input : Nat) (u : Nat × Nat) : Nat × Nat × Nat × Word :=
  (0, stop, 8 * input + u.1, mkWord [(0, input), (4, u.2), (15, u.1)])

/-- The wires of a ring input are repaired, and recorded in the spare map (18 R394). -/
def Fabric.repairWires (f : Fabric) (stop input : Nat) (bridge : Bool) (failed : List Nat) :
    Fabric × Bool :=
  let w := (f.stopU stop).wear.get input {}
  let (used, short) := mapWires bridge failed w.spares
  let fresh := used.drop w.spares.length
  ((f.updStop stop fun x => { x with wear := x.wear.put input { w with
      spares := used
      wcount := fresh.foldl (fun m u => m.del u.2) w.wcount } }).updFmu
    fun m => { m with spares := m.spares ++ fresh.map (wireRecord stop input) }, short)

/-- The direction that leaves `stop` on `o` enters a state: both its ends start afresh (05 R127).
A trained bridge measures X and sets `PAD` (06 R137), and the DSR waits for its new digests (14 R326). -/
def Fabric.linkEnters (f : Fabric) (s o : Nat) (st : LinkState) (x : Nat) : Fabric :=
  let br := f.bridge s o
  let f0 := f.when br fun f => f.updFmu fun m => { m with dig := { m.dig with dsrValid := false } }
  let f1 := f0.updTx (.st s o) fun t => { ({} : LinkTx) with state := st, retries := t.retries }
  f1.updRx (.st (f.nbr s o) (opposite o)) fun r =>
    { ({} : LinkRx) with corr := r.corr, landing := r.landing, dropVc := r.dropVc, lastIntact := f.time.fcc
                         pad := if br then some (BitVec.ofNat 5 (23 - crossX x)) else none
                         xMeas := if br then crossX x else 0 }

/-- Every ring link is up. -/
def Fabric.allUp (f : Fabric) : Bool :=
  f.stopIds.all fun s => (List.range 4).all fun o => (f.txOf s o).state == .up

/-- LINK_TRAIN_PHASE_END (18 R394, R395): the direction from `stop` over `output` ends its pattern
period, then its idle-flit period. DESIGN CHOICE (log entry 114). -/
def execLinkTrainPhaseEnd (stop output : Nat) (failed : List Nat) (good : Bool) (x : Nat) (s : State) :
    Host.Outcome State Fault Refusal :=
  s.run fun f => f.when
    (f.live && f.time.aligned && f.boot.latch == 5 && !f.boot.fail && stop < nStops f.variant
      && output < 4 && (f.txOf stop output).state == .training) <|
    fun f =>
      let r := f.nbr stop output
      let br := f.bridge stop output
      let w := (f.stopU r).wear.get output {}
      let setW (f : Fabric) (g : LinkWear → LinkWear) : Fabric :=
        f.updStop r fun y => { y with wear := y.wear.upd output {} g }
      if w.phase == 0 then
        let (f1, short) := f.repairWires r output br failed
        setW f1 fun w => { w with phase := 1, unmapped := short }
      else if good && !w.unmapped then
        let f1 := (setW f fun w => { w with phase := 0 }).linkEnters stop output .up x
        if f1.allUp then f1.bootStep 6 else f1
      else
        let f1 := setW f fun w => { w with phase := 0, attempt := w.attempt + 1 }
        if w.attempt + 1 ≥ 3 then f1.bootStop 0x04 (dieOfStop stop) (stop * 16 + output) else f1

/-! ## The program FIFO (18 R392, R404) -/

/-- Free op places of the FIFO. -/
def Prog.free (p : Prog) : Nat := 256 - p.fifo.length

/-- A word enters the FIFO; four words make an op, lowest first. -/
def Prog.write (p : Prog) (w : Word) : Prog :=
  if p.free = 0 then { p with ovf := true }
  else match p.part with
    | [a, b, c] => { p with part := [], fifo := p.fifo ++ [w ++ c ++ b ++ a] }
    | l => { p with part := l ++ [w] }

/-- A write of `FMU_PROG_DATA`. -/
def Fabric.progWrite (f : Fabric) (w : Word) : Fabric :=
  f.updFmu fun m => { m with prog := m.prog.write w }

/-- FMU_PROG_WRITE (18 R392). -/
def execFmuProgWrite (word : Word) (s : State) : Host.Outcome State Fault Refusal :=
  s.run fun f => f.onBus true fun f => f.progWrite word

end Sys2Proof.Machine
end

