-- ==== Sys2Proof/Machine/Injection.lean ====
section
/-! DEFINITION. Injection at an NI: the steps of R83 at the heads of its queues, meters, windows,
credits, the choice of the next packet, and its way onto the port (04 R83-R86; 05 R123, R124; 06
R132-R135, R140-R142; 13 R298, R301, R303, R305, R308). -/

namespace Sys2Proof.Machine

/-! ## Meters (06 R140, R143) -/

/-- Word w of a domain's meter entry as the meter uses it: settings of a turn load at the next
refill, and `meterOld` lists the words they replace (R142). -/
def Fabric.meterW (f : Fabric) (p d w : Nat) : Word :=
  match (f.ni p).inj.meterOld with
  | some m => NMap.get m (4 * d + w) (f.niTab p 2 (4 * d + w))
  | none => f.niTab p 2 (4 * d + w)

def Fabric.meterOn (f : Fabric) (p d : Nat) : Bool := bit (f.meterW p d 0) 31

/-- A metered packet (R140). -/
def metered (h : Header) : Bool :=
  let k := h.kind.toNat
  (k == 0 || k == 1 || k == 5 || k == 7) && h.cls != 1 && h.cls != 0

/-- The bytes a packet counts. -/
def Fabric.meterBytes (f : Fabric) (p : Nat) (h : Header) : Nat := h.bcnt.toNat + fld (f.niReg p 0x320) 7 0

/-- The colour of a packet: 0 green, 1 yellow, 2 red. -/
def Fabric.preview (f : Fabric) (p : Nat) (h : Header) : Nat :=
  let d := h.domain.toNat
  if !metered h || !f.meterOn p d then 0
  else
    let b := f.meterBytes p h
    if (f.ni p).inj.tp.get d 0 < b then 2 else if (f.ni p).inj.tc.get d 0 < b then 1 else 0

/-- The charge of a packet of a colour. -/
def Fabric.chargeMeter (f : Fabric) (p : Nat) (h : Header) (col : Nat) : Fabric :=
  let d := h.domain.toNat
  if !metered h || !f.meterOn p d || col == 2 then f
  else
    let b := f.meterBytes p h
    f.updNi p fun n => { n with inj := { n.inj with
      tp := n.inj.tp.upd d 0 (· - b), tc := if col == 0 then n.inj.tc.upd d 0 (· - b) else n.inj.tc } }

/-- The refill of one NI (R140, R142). -/
def Fabric.refill (f : Fabric) (p : Nat) : Fabric :=
  let ds := List.range 64
  let w (d i : Nat) : Word := f.niTab p 2 (4 * d + i)
  let fresh (d : Nat) : Bool := match (f.ni p).inj.meterOld with
    | some m => (NMap.find? m (4 * d)).isSome
    | none => false
  -- a committed rate that has been shed leaves nothing to meter green (R145)
  let shed (d : Nat) : Bool := fresh d && f.fmu.shed.contains (p, d) && fld (w d 1) 31 16 == 0
  let old := (f.ni p).inj.ccOld
  let level (m : NMap Nat) (lo : Nat) (hi : Nat) : NMap Nat := ds.foldl (fun m d =>
    let cap := fld (w d 2) hi lo * 1024
    let x := if fresh d then (if lo == 16 && shed d then 0 else cap) else min cap (m.get d 0 + 16 * fld (w d 1) hi lo)
    if x == 0 then m.del d else m.put d x) m
  let f1 := f.updFmu fun m => { m with shed := m.shed.filter fun x => !(x.1 == p && fresh x.2) }
  f1.updNi p fun n =>
    let i := n.inj
    -- the packet that a domain held red is the next it previews (R141)
    let turns := i.redHeld.foldl (fun m e => NMap.put m e.1 (if e.2 == 0 then 1000 else e.2 - 1)) i.turns
    { n with inj := { i with
      tc := level i.tc 16 31, tp := level i.tp 0 15, redHeld := [], turns := turns, meterOld := none, ccOld := []
      ccMgt := if (NMap.find? old 0x330).isSome then 65536 else i.ccMgt
      ccSig := if (NMap.find? old 0x334).isSome then 65536 else i.ccSig } }

/-- METER_REFILL (R140): the next fc with k mod 512 = 256. -/
def execMeterRefill (s : State) : Host.Outcome State Fault Refusal :=
  s.run fun f =>
    let t := (f.time.fcc + 256) / 512 * 512 + 256
    f.when (f.moving && f.due t) fun f =>
      (f.portIds.filter fun p => f.kind p != 0).foldl (fun g p => g.refill p) (f.reach t)

/-! ## What the head of a queue meets (04 R83; 12 R276, R282, R283, R286) -/

/-- What to do with a head before it can be chosen. -/
inductive Verdict where
  | ready
  | refuse (st : Status)
  /-- the Route Cache holds the identifier's port -/
  | found (port : Nat)
  | lookup (ident : BitVec 15)
  | expand
  deriving DecidableEq, Repr

/-- Fences and isolation of the NI itself. -/
def Fabric.ownFence (f : Fabric) (p : Nat) (h : Header) : Option Status :=
  let n := f.ni p
  if !isRequestKind h.kind.toNat then none
  else if n.pwr.fence || n.pwr.dfence.getLsbD h.domain.toNat then some .fenced
  else if (f.sport p).pwr == .isolating then some .targetOff
  else none

/-- The mask of a multicast run is still to be split. -/
def Fabric.unsplit (f : Fabric) (p : Nat) (o : OutPkt) : Bool :=
  o.pkt.hdr.kind == 5 && !o.resolved && nodeOf o.pkt.hdr.dest == f.node p &&
    (match o.purpose with | some (.mcRun ..) => true | some .mcRelay => true | _ => false)

/-- The port that the NI has resolved the packet's identifier to: by a directory answer, or by a Route
Cache hit in the epoch in force (04 R92, R93). -/
def Fabric.flatPort (f : Fabric) (o : OutPkt) : Option Nat :=
  if o.hit.all (· == f.epoch) then o.port else none

/-- The port in the Route Cache for a packet whose identifier is not yet resolved. -/
def Fabric.cachedPort (f : Fabric) (p : Nat) (o : OutPkt) : Option Nat :=
  if o.pkt.hdr.dmode != 1 || (f.flatPort o).isSome || f.beforeTurn1 then none
  else (cacheHit (f.ni p).ini.rc (fld o.pkt.hdr.dest 14 0) f.epoch).map fun ws => fld (ws.headD 0) 9 0

/-- Steps 1-9 of R83 for a waiting packet: an identifier already resolved goes on at step 4. -/
def Fabric.resolveOut (f : Fabric) (p : Nat) (o : OutPkt) : Resolve :=
  let h := o.pkt.hdr
  match if h.dmode == 1 then f.flatPort o else none with
  | some r => f.resolvePort p r false (isRequestKind h.kind.toNat) h.domain.toNat
  | none => f.resolve p h

def Fabric.verdict (f : Fabric) (p : Nat) (o : OutPkt) : Verdict :=
  if o.dirWait || o.passed then .ready
  else if f.unsplit p o then
    (if (f.ni p).ini.ort.length < 512 && (f.ni p).ini.pool + f.runPool p o ≤ 528 then .expand else .ready)
  else match f.ownFence p o.pkt.hdr with
  | some st => .refuse st
  | none =>
    if o.resolved then .ready
    else if o.tc.isSome && !paPopulated f.variant o.pkt.hdr.addr.toNat then .refuse .unreachable
    else match f.cachedPort p o with
    | some r => .found r
    | none => match f.resolveOut p o with
      | .refuse st => .refuse st
      | .miss i => .lookup i
      | .go .. => .ready

/-- The second part of a split load behind its first (01 R444). -/
def OutPkt.sibling (o : OutPkt) (rest : List OutPkt) : Option OutPkt :=
  match o.purpose, rest with
  | some (.load e 0), x :: _ => if x.purpose == some (.load e 1) && x.pkt.hdr.tag == o.pkt.hdr.tag then some x else none
  | _, _ => none

/-- The verdict on a head: the parts of a split load are checked together, before either is injected. -/
def Fabric.headVerdict (f : Fabric) (p : Nat) (o : OutPkt) (rest : List OutPkt) : Verdict :=
  match f.verdict p o, o.sibling rest with
  | .ready, some x => match f.verdict p x with
    | .refuse st => .refuse st
    | _ => .ready
  | v, _ => v

/-- A head is refused, and with it the second part of its load. -/
def Fabric.refuseHead (f : Fabric) (p q : Nat) (o : OutPkt) (rest : List OutPkt) (st : Status) : Fabric :=
  match o.sibling rest with
  | some x => ((f.setInjQ p q (rest.drop 1)).refuseOut p o st).refuseOut p x st
  | none => (f.setInjQ p q rest).refuseOut p o st

/-- The head of a queue is taken through R83: refused heads leave, and the next one is looked at. -/
def Fabric.settleHead (f : Fabric) (p q : Nat) : Nat → Fabric
  | 0 => f
  | n + 1 =>
    match f.injQ p q with
    | [] => f
    | o :: rest =>
      match f.headVerdict p o rest with
      | .ready => f
      | .refuse st => (f.refuseHead p q o rest st).settleHead p q n
      | .found r =>
        ((f.setInjQ p q ({ o with port := some r, hit := some f.epoch } :: rest)).updNi p fun x => { x with ini := { x.ini with
          rc := cacheTouch x.ini.rc (fld o.pkt.hdr.dest 14 0) (x.ini.stamp + 1) f.epoch
          stamp := x.ini.stamp + 1 } }).settleHead p q n
      | .expand => (f.expandMc p q o rest).settleHead p q n
      | .lookup i =>
        (f.setInjQ p q ({ o with dirWait := true, missEp := f.epoch, port := none, hit := none } :: rest)).lookup
          p o.pkt.hdr.domain o.pkt.hdr.op (4 * i.toNat) 4 (.dir i f.epoch)

/-! ## A head that can be offered -/

/-- A head ready to be sent: its queue, its header with `RPORT` and class, its row direction. -/
structure Shot where
  q : Nat
  o : OutPkt
  hdr : Header
  dir : Nat
  fwd : Bool := false
  deriving DecidableEq, Repr

/-- The packets of a channel's data ops take the channel's class of the moment (06 R135). -/
def Fabric.shotClass (f : Fabric) (p : Nat) (o : OutPkt) : BitVec 3 :=
  match o.purpose with
  | some (.run c _ _) => if o.pkt.hdr.kind == 4 then o.pkt.hdr.cls else f.chanClass p c
  | some (.mcRead c _ _) => f.chanClass p c
  | _ => o.pkt.hdr.cls

/-- DEDUCED (log entry 107). -/
def Fabric.shotOf (f : Fabric) (p q : Nat) (o : OutPkt) : Option Shot :=
  let h := o.pkt.hdr
  if o.dirWait || f.unsplit p o then none
  else if o.resolved then some { q := q, o := o, hdr := h, dir := o.injDir.getD 0 }
  else match f.resolveOut p o with
  | .go r fwd d =>
    let remoteMc := h.kind == 5 && fwd
    let aux : BitVec 256 := if remoteMc then BitVec.ofNat 256 (2 ^ stopOfPort r) else o.pkt.aux
    some { q := q, o := { o with pkt := { o.pkt with aux := aux } }, dir := d, fwd := fwd
           hdr := { h with rport := BitVec.ofNat 10 r, cls := if fwd || h.cls == 5 then 5 else f.shotClass p o } }
  | _ => none

/-- A gateway's packet from its transport, on its way through. -/
def Fabric.passing (f : Fabric) (p : Nat) (x : Shot) : Bool := f.kind p == 3 && x.o.purpose.isNone && x.hdr.cls == 5

/-- The window charge of a request (05 R123); a gateway charges nothing for what passes in from its
transport. DESIGN CHOICE (log entry 177). -/
def Fabric.chargeOf (f : Fabric) (p : Nat) (x : Shot) : Nat :=
  if f.passing p x then 0
  else if x.hdr.kind == 0 then 1 + dataLen x.hdr.addr.toNat x.hdr.bcnt.toNat
  else if x.hdr.kind == 1 then x.hdr.len.toNat + 1 else 0

/-- Answer Pool flits of a request (13 R301). -/
def Fabric.poolOf (f : Fabric) (p : Nat) (x : Shot) : Nat :=
  if f.variant != .t1 || f.kind p != 1 then 0
  else match x.o.purpose with
  | some (.walk ..) => 1
  | some (.dir ..) => 1
  | some (.grp ..) => 1
  | _ => if x.hdr.kind == 0 then dataLen x.hdr.addr.toNat x.hdr.bcnt.toNat else if x.hdr.kind == 1 then 1 else 0

/-- The request opens an entry of the Outstanding Request Table: a multicast copy does not. -/
def Fabric.opensEntry (f : Fabric) (p : Nat) (x : Shot) : Bool :=
  !f.passing p x && (x.hdr.kind == 0 || x.hdr.kind == 1 || x.hdr.kind == 7)

/-- The link of the port can take a packet of a class. -/
def Fabric.portReady (f : Fabric) (p : Nat) (cls : BitVec 3) : Bool :=
  f.canSend (.ni p) (2 * cls.toNat) && (f.ni p).tx.resend == 0 && (f.ni p).tx.retry.length < retryLimit false

/-- Contributions a member may hold in flight for one chunk. -/
def Fabric.treeMult (f : Fabric) (p tree : Nat) : Nat :=
  match (f.die (dieOfPort p)).recs.find? tree with
  | some t => tdMult t.desc
  | none => 4

/-- Chunk i of a contribution, if it is one. -/
def Fabric.chunkOf (f : Fabric) (p : Nat) (o : OutPkt) : Option Chunk :=
  match o.purpose with
  | some (.chunk c e i) => (f.entry (.tsq p c) e).bind fun x => x.work.chunks[i]?
  | _ => none

/-- A contribution would be the first of its op under a tag that is held after a timeout (08 R197; 10
R254). DEDUCED (log entry 136). -/
def Fabric.tagHeld (f : Fabric) (p : Nat) (o : OutPkt) : Bool :=
  (f.ni p).ini.heldTags.any (fun x => x.1 == o.pkt.hdr.tag) &&
  match o.purpose with
  | some (.chunk c e _) => match f.entry (.tsq p c) e with
    | some x => !x.work.chunks.any fun k => k.sent || k.pass == 3
    | none => false
  | _ => false

/-- Unanswered scheduled requests of a channel. -/
def Ni.schOpen (n : Ni) (c : Nat) : Nat :=
  (n.ini.ort.filter fun o => o.req.cls == 1 && o.purpose.op.map (·.1) == some c).length

/-- The injection window of its destination die holds a head (05 R124). -/
def Fabric.winWait (f : Fabric) (p : Nat) (x : Shot) : Bool :=
  let n := f.ni p
  let d := dieOfPort x.hdr.rport.toNat
  let c := f.chargeOf p x
  let infl := n.wnd.infl.get d 0
  c > 0 && infl != 0 && infl + c > n.wnd.win.get d 0x400

/-- Why a head that is resolved waits for something other than its window: the stall reason. -/
def Fabric.creditHold (f : Fabric) (p : Nat) (x : Shot) : Option Nat :=
  let n := f.ni p
  let h := x.hdr
  -- a tree that has been torn down gives no range: its stop refuses what is left (10 R233)
  let up := (f.treeAt (stopOfPort p) h.tag.toNat).isSome
  if f.opensEntry p x && n.ini.ort.length ≥ 512 then some 2
  else if f.poolOf p x > 0 && n.ini.pool + f.poolOf p x > 528 then some 2
  else if f.kind p == 1 && isFwdReq h && n.ini.egCredit.get h.rport.toNat 0 < (h.len.toNat : Int) then some 2
  else if f.passing p x && (h.kind == 0 || h.kind == 1) && n.gw.tokens.get h.rport.toNat 0 == 0 then some 2
  else if h.kind == 7 && up && h.seq.toNat ≥ f.redLow p h.tag.toNat + twNbuf (f.treeW p h.tag.toNat 1) then some 2
  else if (match f.chunkOf p x.o with
      | some k => up && !k.sent && n.redFlight h.tag.toNat k.k ≥ f.treeMult p h.tag.toNat
      | none => false) then some 2
  else if f.tagHeld p x.o then some 2
  else if h.cls == 1 && x.q < 16 && n.schOpen x.q ≥ 4 then some 3
  else none

/-- Why a head that is resolved may not be sent yet: the stall reason of its channel. -/
def Fabric.holdOf (f : Fabric) (p : Nat) (x : Shot) : Option Nat :=
  match f.creditHold p x with
  | some r => some r
  | none => if f.winWait p x then some 3 else none

/-- The head of a queue, if it can be sent. DESIGN CHOICE (log entry 14). -/
def Fabric.offer (f : Fabric) (p q : Nat) : Option Shot :=
  match f.injQ p q with
  | [] => none
  | o :: _ => match f.shotOf p q o with
    | some x => if (f.holdOf p x).isNone && f.portReady p x.hdr.cls then some x else none
    | none => none

/-- The stall reason that a channel's head gives. DEDUCED (log entry 91). -/
def Fabric.headReason (f : Fabric) (p q : Nat) : Option Nat :=
  match f.injQ p q with
  | [] => none
  | o :: _ =>
    if o.dirWait then some 7
    else if f.unsplit p o then some 2
    else match f.shotOf p q o with
    | some x => if ((f.ni p).inj.redHeld.find? x.hdr.domain.toNat).isSome || f.preview p x.hdr == 2 then some 2 else f.holdOf p x
    | none => none

/-- The stall reason that a channel's `SIG` gives while it heads the NI's `SIG` queue. -/
def Fabric.sigReason (f : Fabric) (p c : Nat) : Option Nat :=
  match f.injQ p 102 with
  | [] => none
  | o :: _ =>
    if (o.purpose.bind Purpose.op).map (·.1) != some c then none
    else if o.dirWait then some 7
    else (f.shotOf p 102 o).bind fun x => f.creditHold p x

/-- The stall reasons of an NI's channels follow their heads. DEDUCED (log entry 91). -/
def Fabric.setReasons (f : Fabric) (p : Nat) : Fabric :=
  let go (c : Nat) (k : Chan) : Chan :=
    if k.halted then k
    else match (f.headReason p c).or (f.sigReason p c) with
    | some r => { k with reason := BitVec.ofNat 4 r }
    | none =>
      let sent := k.reason == 7 && (!(f.injQ p c).isEmpty || !k.queue.any fun e => opcOf e.op == ocMcast)
      if k.reason == 2 || k.reason == 3 || sent then { k with reason := 0 } else k
  f.updNi p fun n => { n with tsq := { n.tsq with chans := n.tsq.chans.mapAll go } }

/-- Token requests for heads that need one (13 R305). -/
def Fabric.askTokens (f : Fabric) (p : Nat) : Fabric :=
  if f.kind p != 3 then f
  else
    let want := ((f.ni p).inj.queues.filterMap fun q => match q.2 with
      | o :: _ => (f.shotOf p q.1 o).bind fun x =>
          if f.passing p x && (x.hdr.kind == 0 || x.hdr.kind == 1) && (f.ni p).gw.tokens.get x.hdr.rport.toNat 0 == 0
          then some x.hdr.rport.toNat else none
      | [] => none).eraseDups
    want.foldl (fun g t =>
      if (g.ni p).gw.tokAsked.contains t then g
      else
        let n := fld (g.niReg p 0xA00) 31 24 - (g.ni p).gw.tokens.get t 0
        if n = 0 then g
        else (g.sendX p 3 n t).updNi p fun x => { x with gw := { x.gw with tokAsked := x.gw.tokAsked ++ [t] } }) f

/-! ## Scheduled slots (06 R135, R136) -/

/-- The binding that owns slot s of an NI's injection Lane Schedule. -/
def Fabric.slotOwner (f : Fabric) (p s : Nat) : Option Nat :=
  let w := f.niTab p 3 (s % 512)
  if bit w 31 then some (fld w 29 28) else none

/-- How far slot s lies into its owner's run. -/
def Fabric.runOffset (f : Fabric) (p b : Nat) : Nat → Nat → Nat
  | 0, _ => 0
  | n + 1, s => if f.slotOwner p (s + 511) == some b then f.runOffset p b n ((s + 511) % 512) + 1 else 0

/-- The scheduled packet that the slot of this fc belongs to (R135). DEDUCED (log entry 159). -/
def Fabric.schShot (f : Fabric) (p : Nat) : Option Shot :=
  if !hasRdu f.variant || f.crawl || f.kind p != 1 then none
  else
    let s := f.fccOf (dieOfPort p) % 512
    match f.slotOwner p s with
    | none => none
    | some b =>
      let w := f.niReg p (0x340 + 4 * b)
      let plen := max 1 (fld w 5 0)
      let k := f.runOffset p b 511 s
      let u := f.unit
      -- in a run the first packet begins at the first slot, each other one where the one before it ends
      let follows (x : Shot) : Bool := k == 0 ||
        (NMap.find? (f.ni p).inj.schLast b == some (f.time.fcc - plen * u) && x.o.at_ + k * u ≤ f.time.fcc)
      if bit w 31 && k % plen == 0 then
        match f.offer p (fld w 19 16) with
        | some x => if x.hdr.cls == 1 && follows x then some x else none
        | none => none
      else none

/-- A scheduled packet is injected under the binding of the slot. -/
def Fabric.markSch (f : Fabric) (p : Nat) : Fabric :=
  match f.slotOwner p (f.fccOf (dieOfPort p) % 512) with
  | some b => f.updNi p fun n => { n with inj := { n.inj with schLast := n.inj.schLast.put b f.time.fcc } }
  | none => f

/-! ## Step 5: deficit round robin over domains (06 R133) -/

/-- The queues of requests: channels, load path, lookups and walks; at a gateway its domain queues. -/
def Fabric.reqQueues (f : Fabric) (p : Nat) : List Nat :=
  if f.kind p == 3 then [103] ++ (List.range 64).map (32 + ·) else List.range 17 ++ [103]

/-- The level of a head: a gateway's own packets carry their colour from ingress. -/
def Fabric.level (f : Fabric) (p : Nat) (x : Shot) : Nat :=
  if f.kind p == 3 then x.hdr.colour.toNat
  else if ((f.ni p).inj.redHeld.find? x.hdr.domain.toNat).isSome then 2 else f.preview p x.hdr

/-- The next head of a domain: queues take turns. -/
def Fabric.domHead (f : Fabric) (p d : Nat) (xs : List Shot) : Option Shot :=
  let mine := xs.filter fun x => x.hdr.domain.toNat == d
  let last := (f.ni p).inj.turns.get d 1000
  match mine.find? fun x => x.q > last with
  | some x => some x
  | none => mine.head?

/-- The domain after the current one in a list, ascending and cyclic. -/
def nextDom (cur : Nat) (ds : List Nat) : Nat :=
  match ds.find? fun d => d > cur with
  | some d => d
  | none => ds.headD cur

/-- The loop of R133: the domain served, with the deficits and pointer it leaves. -/
def drrLoop (quant len : Nat → Nat) (ds : List Nat) : Nat → Nat → NMap Nat → Nat × NMap Nat
  | 0, cur, df => (cur, df)
  | n + 1, cur, df =>
    if ds.contains cur && df.get cur 0 ≥ len cur then (cur, df.upd cur 0 (· - len cur))
    else
      let c := nextDom cur ds
      drrLoop quant len ds n c (df.upd c 0 (· + max 1 (quant c)))

/-- The heads of the request queues that are ready: nothing but the window or the link may hold them. -/
def Fabric.readyHeads (f : Fabric) (p : Nat) : List Shot :=
  (f.reqQueues p).filterMap fun q => match f.injQ p q with
    | o :: _ => (f.shotOf p q o).filter fun x => x.hdr.cls != 1 && (f.creditHold p x).isNone
    | [] => none

/-- The request chosen by step 5, with the deficits as they become. One that its window holds is not
sent, and its queue is passed over until the window admits it (R132). DEDUCED (log entry 161). -/
def Fabric.drrShot (f : Fabric) (p : Nat) : Option Shot × Fabric :=
  let xs := f.readyHeads p
  let held := (xs.filter fun x => (f.ni p).inj.winHeld.contains x.q && f.winWait p x).map (·.q)
  let doms := (List.range 64).filter fun d => xs.any fun x => x.hdr.domain.toNat == d
  let heads := doms.filterMap fun d =>
    (f.domHead p d (xs.filter fun x => !held.contains x.q && f.portReady p x.hdr.cls)).map fun x => (d, x)
  let red := heads.filter fun e => f.level p e.2 ≥ 2
  let df0 := (f.ni p).inj.deficits.filter fun e => doms.contains e.1
  let f0 := f.updNi p fun n => { n with inj := { n.inj with
    deficits := df0, winHeld := held
    redHeld := red.foldl (fun m e => if (NMap.find? m e.1).isSome then m else NMap.put m e.1 e.2.q) n.inj.redHeld } }
  let at_ (l : Nat) := heads.filter fun e => f.level p e.2 == l
  let pick (l : Nat) : Option Shot × Fabric :=
    let a := at_ l
    let ds := a.map (·.1)
    let len (d : Nat) : Nat := ((a.find? fun e => e.1 == d).map fun e => e.2.hdr.len.toNat).getD 1
    let quant (d : Nat) : Nat := fld (f.niTab p 2 (4 * d)) 23 16
    let cur := if l == 0 then (f.ni p).inj.curGreen else (f.ni p).inj.curYellow
    let (d, df) := drrLoop quant len ds 2300 cur df0
    let x := (a.find? fun e => e.1 == d).map (·.2)
    let q := (x.map (·.q)).getD 1000
    let waits := x.any (f.winWait p)
    (if waits then none else x, f0.updNi p fun n => { n with inj := { n.inj with
      deficits := if waits then df.upd d 0 (· + len d) else df
      curGreen := if l == 0 then d else n.inj.curGreen
      curYellow := if l == 0 then n.inj.curYellow else d
      turns := if waits then n.inj.turns else n.inj.turns.put d q
      winHeld := if waits then n.inj.winHeld ++ [q] else n.inj.winHeld } })
  if !(at_ 0).isEmpty then pick 0 else if !(at_ 1).isEmpty then pick 1 else (none, f0)

/-! ## Sending (03 R72; 04 R85, R86; 06 R132) -/

/-- The row direction of a packet: a tie is decided as R86 states. -/
def Fabric.rowDir (f : Fabric) (p : Nat) (x : Shot) : Nat × Fabric :=
  if x.dir == 3 then f.tieChoice p x.hdr.cls.toNat else (x.dir, f)

/-- The flits of a packet leave one by one: the head now, the others in the next fc. -/
def Fabric.sendPacket (f : Fabric) (p : Nat) (pkt : Packet) (dir : Nat) : Fabric :=
  let h := pkt.hdr
  let vc := 2 * h.cls.toNat
  let body := Packet.bodyFlits pkt
  let n := body.length
  let head : BitVec 1024 := Header.toBits h ++ Packet.headPay pkt
  let f1 := f.sendNew (.ni p) (if n = 0 then ftSingle else ftHead) vc head (BitVec.ofNat 4 dir)
  let rest := (body.zip (List.range n)).map fun b => (if b.2 + 1 = n then ftTail else ftBody, vc, b.1)
  f1.updNi p fun x => { x with inj := { x.inj with sending := rest } }

/-- The entry a request opens. -/
def Fabric.entryOf (f : Fabric) (p : Nat) (x : Shot) (h : Header) : OrtEntry :=
  { tag := h.tag, seq := h.seq, dom := h.domain, purpose := x.o.purpose.getD .mcRelay, red := h.kind == 7
    req := h, die := dieOfPort h.rport.toNat, charge := f.chargeOf p x, since := f.time.fcc
    limit := if x.fwd || (h.kind == 7 && twXn (f.treeW p h.tag.toNat 1)) then f.remoteTmo p else f.localTmo p
    tc := x.o.tc, local_ := x.o.local_, pool := f.poolOf p x }

/-- The first copy of a multicast run starts its timer. -/
def Fabric.mcStart (f : Fabric) (p : Nat) (o : OrtEntry) : OrtEntry :=
  if o.limit = 0 then { o with since := f.time.fcc, limit := if o.fwdNeed > 0 then f.remoteTmo p else f.localTmo p } else o

/-- What an op learns when a packet of it has been injected. -/
def Fabric.injected (f : Fabric) (p : Nat) (x : Shot) (h : Header) : Fabric :=
  let win (c e i : Nat) (f : Fabric) : Fabric :=
    match (f.entry (.tsq p c) e).bind fun y => y.work.runs[i]? with
    | some r => if x.o.tc.isSome then f.updWin p c e r.win fun y => { y with issued := true } else f
    | none => f
  match x.o.purpose with
  | some (.run c e i) =>
    if h.kind == 4 then
      (f.updNi p fun n => { n with inj := { n.inj with ccSig := n.inj.ccSig - 65536 } }).finish (seqOf p c) e .ok 0
    else ((win c e i f).updWork (.tsq p c) e Work.oneGone).checkIssued (.tsq p c) e
  | some (.mcRead c e i) => win c e i f
  | some (.chunk c e i) =>
    let main := (redOf x.o.pkt.aux).rop != 7
    let f1 := f.updChunk p c e i fun k => { k with sent := true, pass := if main then 3 else k.pass }
    if main then (f1.updWork (.tsq p c) e Work.oneGone).checkIssued (.tsq p c) e else f1
  | some (.tree ..) => f
  | some (.mcRun ..) => f.mcCopyGone p x.o (f.mcStart p)
  | some .mcRelay => f.mcCopyGone p x.o (f.mcStart p)
  | some (.rdRelay node _) => f.gwRelease p { x.o.pkt with hdr := { h with src := BitVec.ofNat 28 (node * 1024) } }
  | some _ => f
  | none =>
    if isFwdReq h && f.kind p == 3 then
      let r := h.rport.toNat
      let token := h.kind == 0 || h.kind == 1
      (f.updNi p fun n => { n with gw := { n.gw with
        tokens := if token then n.gw.tokens.upd r 0 (· - 1) else n.gw.tokens
        tokLast := if token then n.gw.tokLast.put r f.time.fcc else n.gw.tokLast } }).gwRelease p x.o.pkt
    else if f.kind p == 3 && h.cls == 5 && isAnswerKind h.kind.toNat then f.updNi p fun n =>
      { n with gw := { n.gw with inAnswers := n.gw.inAnswers - x.o.need } }
    else if x.o.need > 0 then f.freeDat p (x.o.need - 1) else f

/-- The second part of a split load goes where its checks, made before the first part was injected, have
resolved it (01 R444). -/
def Fabric.passSibling (f : Fabric) (p : Nat) (x : Shot) : Fabric :=
  match f.injQ p x.q with
  | o :: rest => match if (x.o.sibling [o]).isSome then f.shotOf p x.q o else none with
    | some y => f.setInjQ p x.q ({ o with
        pkt := { o.pkt with hdr := y.hdr }, resolved := true, passed := true, injDir := some y.dir } :: rest)
    | none => f
  | [] => f

/-- The chosen head is injected (06 R132). -/
def Fabric.launch (f : Fabric) (p : Nat) (x : Shot) (colour : Nat) : Fabric :=
  let f0 := (f.setInjQ p x.q ((f.injQ p x.q).drop 1)).passSibling p x
  let (dir, f1) := f0.rowDir p x
  let (tr, f2) := f1.traceBit p x.q
  let passing := f.passing p x
  let h0 : Header := { x.hdr with
    epoch := f.epoch, vc := 0, hops := 0, rsv := 0, colour := BitVec.ofNat 2 colour
    mark := if passing then x.hdr.mark else 0, trace := if x.q < 17 then BitVec.ofNat 1 (b2n tr) else x.hdr.trace }
  let h := Header.seal h0
  let f3 := if f.opensEntry p x then f2.updNi p fun n => { n with
      wnd := { n.wnd with infl := n.wnd.infl.upd (dieOfPort h.rport.toNat) 0 (· + f.chargeOf p x) }
      ini := { n.ini with ort := n.ini.ort ++ [f2.entryOf p x h], pool := n.ini.pool + f.poolOf p x } }
    else f2
  let f4 := if f.kind p == 1 && isFwdReq h then f3.updNi p fun n => { n with ini := { n.ini with
      egCredit := n.ini.egCredit.upd h.rport.toNat 0 (· - (h.len.toNat : Int))
      egCharged := n.ini.egCharged.upd h.rport.toNat 0 (· + h.len.toNat) } } else f3
  let f5 := if f.kind p == 3 then f4 else f4.chargeMeter p h colour
  ((((f5.sendPacket p { x.o.pkt with hdr := h } dir).niCount p 0 h).tracePacket p 1 h).injected p x h).setReasons p

/-! ## Faults leave (06 R132, R134; 16 R353) -/

/-- The faults a unit has waiting. -/
def Fabric.fltOf (f : Fabric) : UnitId → FaultQ
  | .ni p => (f.ni p).flt
  | .stop s => (f.stopU s).flt
  | .slice d => (f.die d).flt
  | .fmu => {}
/-- A unit's faults change. -/
def Fabric.updFlt (f : Fabric) (u : UnitId) (g : FaultQ → FaultQ) : Fabric :=
  match u with
  | .ni p => f.updNi p fun n => { n with flt := g n.flt }
  | .stop s => f.updStop s fun x => { x with flt := g x.flt }
  | .slice d => f.updDie d fun x => { x with flt := g x.flt }
  | .fmu => f

/-- The MGT control credit that a unit's faults leave under. -/
def Fabric.mgtCredit (f : Fabric) : UnitId → Nat
  | .ni p => (f.ni p).inj.ccMgt
  | .slice d => (f.ni (slicePort d)).inj.ccMgt
  | .stop s => (f.stopU s).flt.credit
  | .fmu => 0
def Fabric.spendMgt (f : Fabric) (u : UnitId) : Fabric :=
  let pay (p : Nat) : Fabric := f.updNi p fun n => { n with inj := { n.inj with ccMgt := n.inj.ccMgt - 65536 } }
  match u with
  | .ni p => pay p
  | .slice d => pay (slicePort d)
  | .stop s => f.updStop s fun x => { x with flt := { x.flt with credit := x.flt.credit - 65536 } }
  | .fmu => f

/-- A unit's oldest fault leaves its queue under the credit. -/
def Fabric.takeFlt (f : Fabric) (u : UnitId) : Fabric :=
  (f.updFlt u fun q => { q with waiting := q.waiting.drop 1 }).spendMgt u

/-- The port of an NI can take an `MGT` head. -/
def Fabric.mgtPortFree (f : Fabric) (p : Nat) : Bool :=
  f.kind p != 0 && f.powered p && (f.ni p).inj.sending.isEmpty && f.portReady p 0

/-- A FAULT packet is injected at port p (04 R83, R86; 16 R353); one that R83 refuses is discarded.
DEDUCED (log entry 151). -/
def Fabric.niFault (f : Fabric) (p : Nat) (u : UnitId) (r : FaultRec) : Fabric :=
  let f1 := f.takeFlt u
  let x := faultPkt (f.node p) p r
  match f.resolve p x.hdr with
  | .go rp _ d =>
    let (dir, f2) := if d == 3 then f1.tieChoice p 0 else (d, f1)
    let h := Header.seal { x.hdr with rport := BitVec.ofNat 10 rp, epoch := f.epoch }
    (f2.sendPacket p { x with hdr := h } dir).niCount p 0 h
  | _ => f1.niErr p 6

/-- The fault that the NI at port p sends next, when its credit allows: its own, then at a slice's
port the slice's. DESIGN CHOICE (log entry 150). -/
def Fabric.faultNext (f : Fabric) (p : Nat) : Option (UnitId × FaultRec) :=
  let d := dieOfPort p
  if !(f.fmu.prog.open_ && (f.ni p).inj.ccMgt ≥ 65536 && f.mgtPortFree p) then none
  else match (f.ni p).flt.waiting, (f.die d).flt.waiting with
  | r :: _, _ => some (.ni p, r)
  | [], r :: _ => if p == slicePort d then some (.slice d, r) else none
  | [], [] => none

/-- A fenced port and one that is powered off send answers only (12 R282, R286). -/
def Fabric.onlyAnswers (f : Fabric) (p : Nat) : Bool := (f.ni p).pwr.fence || (f.sport p).pwr == .isolating

/-- NI_INJECT (06 R132); a credit packet comes after the answers and before SIG: DESIGN CHOICE (log entry
179). -/
def execNiInject (port : Nat) (s : State) : Host.Outcome State Fault Refusal :=
  s.run fun f => f.when
    (f.moving && f.kind port != 0 && f.powered port && (f.ni port).inj.sending.isEmpty) <|
    fun f =>
      let f1 := ((f.ni port).inj.queues.map (·.1)).foldl (fun g q => g.settleHead port q (12 * (g.injQ port q).length + 12)) f
      let f2 := (f1.askTokens port).setReasons port
      match f2.faultNext port with
      | some (u, r) => f2.niFault port u r
      | none =>
      match f2.schShot port with
      | some x => (f2.markSch port).launch port x 0
      | none =>
        match f2.offer port 101 with
        | some x => f2.launch port x 0
        | none =>
          match if f2.onlyAnswers port then none else f2.offer port 104 with
          | some x => f2.launch port x 0
          | none =>
            match if (f2.ni port).inj.ccSig ≥ 65536 then f2.offer port 102 else none with
            | some x => f2.launch port x 0
            | none =>
              match f2.drrShot port with
              | (some x, f3) => f3.launch port x (f2.level port x)
              | (none, f3) => f3.setReasons port

end Sys2Proof.Machine
end

