-- ==== Sys2Proof/Machine/StopOps.lean ====
section
/-! DEFINITION. What a stop does with the packets in its buffers: freeing flits, consuming packets,
answers of its own, leaf slots, copies that will not be sent (03 R80; 05 R115; 09 R215-R220;
04 R445). -/

namespace Sys2Proof.Machine

/-! ## Buffers of a stop (05 R103) -/

/-- The pseudo input that holds the packets a stop builds. -/
def ownInput : Nat := 8

def Fabric.stopQ (f : Fabric) (s key : Nat) : List QPkt := (f.stopU s).vq.get key []
def Fabric.setStopQ (f : Fabric) (s key : Nat) (l : List QPkt) : Fabric :=
  f.updStop s fun x => { x with vq := x.vq.put key l }

/-- Credits of an input are owed; the stop's own packets owe none. -/
def Fabric.oweKey (f : Fabric) (s key n : Nat) : Fabric :=
  if key / 12 < 8 then f.oweIn (.st s (inputOf (key / 12))) (key % 12) n else f

/-- A packet that the stop builds is offered on the given outputs (03 R80; 10 R238). -/
def Fabric.stopSend (f : Fabric) (s : Nat) (x : Packet) (bs : List Branch) : Fabric :=
  let key := 12 * ownInput + 2 * x.hdr.cls.toNat
  let q : QPkt := { hdr := x.hdr, pay := Packet.headPay x, body := Packet.bodyFlits x, tailIn := true
                    route := .go bs, at_ := f.time.fcc }
  f.setStopQ s key (f.stopQ s key ++ [q])

/-- A branch that carries the header and AUX of a packet. -/
def Packet.branch (x : Packet) (o : Nat) : Branch := { out := o, hdr := x.hdr, aux := x.aux }

/-! ## Answers (R445; 03 R70) -/

/-- What a stop has built and cannot send is discarded; `RSP_DROP` is raised unless it is a FAULT,
which is no answer (03 R70, R81). -/
def Fabric.stopRspDrop (f : Fabric) (s : Nat) (h : Header) (st : Status) : Fabric :=
  if h.kind.toNat = kFault then f else f.raiseStop s .rspDrop (infoDrop h st)

/-- A unicast answer of a stop: resolved as the NI at its local port 0 would, then sent on as a head
from a local port (R445). -/
def Fabric.stopAnswer (f : Fabric) (s : Nat) (x : Packet) : Fabric :=
  match f.resolve (4 * s) x.hdr with
  | .go rport _ dir =>
    let d : BitVec 2 := match dir with | 0 => 0 | 2 => 2 | _ => 1
    let h := Header.seal { x.hdr with rport := BitVec.ofNat 10 rport, epoch := f.epoch }
    let y := { x with hdr := h }
    match f.stopAct s 4 d h with
    | .out o => f.stopSend s y [{ Packet.branch y o with
        dead := if (f.txOf s o).state == .withdrawn then some .linkFail else none }]
    | .eject p => match f.portCheck (4 * s + p) h with
      | none => f.stopSend s y [Packet.branch y (4 + p)]
      | some st => (f.portRefused (4 * s + p) st).stopRspDrop s h st
    | .refuse st => f.stopRspDrop s h st
    | .framing => f
  | .refuse st => f.stopRspDrop s x.hdr st
  | .miss _ => f

/-- The port a stop names in an answer to a packet (R80). -/
def answerPort (s : Nat) (h : Header) : Nat :=
  if stopOfPort h.rport.toNat == s then h.rport.toNat else 4 * s

/-- A refused packet that is not answered: a refused answer or SIG is counted, others go silently. A SIG
discarded here enters no NI's error count: DESIGN CHOICE (log entry 174). -/
def Fabric.stopDiscard (f : Fabric) (s : Nat) (h : Header) (st : Status) : Fabric :=
  if isAnswerKind h.kind.toNat || h.kind == 7 then f.stopRspDrop s h st
  else if h.kind == 4 then
    let f1 := if stopOfPort h.rport.toNat == s then f.niErr h.rport.toNat 3 else f
    f1.raiseStop s .sigDrop (infoDrop h st)
  else f

/-- What a stop does with a unicast packet it refuses: consumed in full, then answered (R80). -/
def Fabric.stopRefuse (f : Fabric) (s : Nat) (h : Header) (st : Status) : Fabric × Route :=
  match if h.kind == 7 then none else refusal h st (f.node (4 * s)) (answerPort s h) with
  | some a => (f, .eat (some a))
  | none => (f.stopDiscard s h st, .drop)

/-! ## Multicast acknowledgements of a stop (09 R215, R220) -/

/-- An `MC_ACK` for leaves a stop answers for. -/
def Fabric.stopMcAck (f : Fabric) (s : Nat) (h : Header) (st : Status) (src nack nf : Nat) (low : BitVec 26) : Fabric :=
  f.stopAnswer s { hdr := answerHdr h 6 st (f.node (4 * s)) src, aux := mcAckAux nack nf low }

/-- Every leaf of a copy is answered with one status. -/
def Fabric.stopMcLost (f : Fabric) (s : Nat) (h : Header) (mask : Nat) (st : Status) : Fabric :=
  f.stopMcAck s h st (4 * s) (popcountN 256 mask * popcountN 4 h.pmask.toNat) 0 (BitVec.allOnes 26)

/-- The ports of a leaf copy at a stop. -/
def leafPorts (s : Nat) (h : Header) : List Nat := (bitsSet 4 h.pmask.toNat).map fun p => 4 * s + p

/-- Every port of a multicast leaf slot has a status: the slot is freed and acknowledged (R220). -/
def Fabric.leafDone (f : Fabric) (s slot : Nat) : Fabric :=
  match (f.stopU s).leaf.find? slot with
  | none => f
  | some l =>
    let ps := leafPorts s l.hdr
    if l.root.isSome || !(ps.all fun p => (l.got.find? (localOfPort p)).isSome) then f
    else
      let stOf (p : Nat) : Status := l.got.get (localOfPort p) .ok
      let st := ps.foldl (fun a p => Status.join a (stOf p)) .ok
      let src := (ps.find? fun p => stOf p == st).getD (4 * s)
      let fenced := ps.filter fun p => stOf p == .fenced
      let low := match fenced.head? with
        | some p => BitVec.ofNat 26 (f.node (4 * s) * 1024 + p)
        | none => BitVec.allOnes 26
      (f.updStop s fun x => { x with leaf := x.leaf.del slot }).stopMcAck s l.hdr st src
        (popcountN 4 l.hdr.pmask.toNat) fenced.length low

/-- A port of a leaf slot has a status. -/
def Fabric.leafStatus (f : Fabric) (s slot p : Nat) (st : Status) : Fabric :=
  (f.updStop s fun x => { x with leaf := match x.leaf.find? slot with
    | some l => x.leaf.put slot { l with got := l.got.put p st }
    | none => x.leaf }).leafDone s slot

/-- The lowest free leaf slot of a stop (R219). -/
def Stop.freeSlot (x : Stop) : Option Nat := (List.range 16).find? fun i => (x.leaf.find? i).isNone

/-! ## Freeing flits (09 R216) -/

/-- Flits of a packet that every copy has sent leave the buffer; how many. -/
def QPkt.release (q : QPkt) : QPkt × Nat :=
  match q.route with
  | .go bs =>
    let hd := q.headHeld && bs.all (·.headSent)
    let n := bs.foldl (fun a b => min a (b.sent - q.gone)) q.body.length
    ({ q with headHeld := q.headHeld && !hd, body := q.body.drop n, gone := q.gone + n }, b2n hd + n)
  | .eat _ => ({ q with headHeld := false, body := [], gone := q.gone + q.body.length }, q.held)
  | .drop => ({ q with headHeld := false, body := [], gone := q.gone + q.body.length }, q.held)
  | _ => (q, 0)

/-- The packet has left its buffer. -/
def QPkt.left (q : QPkt) : Bool := !q.headHeld && q.tailIn && q.body.isEmpty

/-- A copy that will not be sent: its packet, or its share of the leaves, is answered (R115, R215). -/
def Fabric.buryBranch (f : Fabric) (s : Nat) (q : QPkt) (b : Branch) : Fabric :=
  match b.dead with
  | none => f
  | some st =>
    if let some n := b.slot then f.leafStatus s n (b.out - 4) st
    else if q.hdr.kind == 5 && q.hdr.cls == 4 then f.stopMcLost s b.hdr b.aux.toNat st
    else if q.hdr.cls == 4 || q.hdr.kind == 8 then f.stopRspDrop s q.hdr st
    else f

/-- Copies that will not be sent leave a packet; a packet with no copy left is consumed.
DEDUCED (log entry 28). -/
def Fabric.bury (f : Fabric) (s : Nat) (q : QPkt) : Fabric × QPkt :=
  match q.route with
  | .go bs =>
    match bs.find? fun b => b.dead.isSome with
    | none => (f, q)
    | some d =>
      let live := bs.filter fun b => b.dead.isNone
      if q.hdr.cls == 4 || q.hdr.kind == 8 then
        (bs.foldl (fun g b => g.buryBranch s q b) f, { q with route := if live.isEmpty then .drop else .go live })
      else
        let (f1, r) := f.stopRefuse s q.hdr (d.dead.getD .linkFail)
        (f1, { q with route := r })
  | _ => (f, q)

/-- The buffer open for a packet's tree, chunk and pass. -/
def Rdu.bufOf (r : Rdu) (tree : BitVec 12) (seq : BitVec 16) (anchorPass : Bool) : Option (Nat × RduBuf) :=
  List.find? (fun b : Nat × RduBuf => b.2.tree == tree && b.2.seq == seq && b.2.anchorPass == anchorPass) r.bufs

/-- A free buffer of the tree's share, unless the tree is frozen. -/
def Fabric.freeBuf (f : Fabric) (s e : Nat) (tree : BitVec 12) : Option Nat :=
  let bufs := (f.stopU s).rdu.bufs
  let w := f.trw s e 1
  if twFreeze w || (bufs.filter fun b => b.2.tree == tree).length ≥ twNbuf w then none
  else (List.range 32).find? fun i => (NMap.find? bufs i).isNone

/-- A contribution breaks its lengths, or the ranges of its tree (03 R75, R81 step 8). DEDUCED (log entry 38). -/
def Fabric.contribBad (f : Fabric) (s e : Nat) (h : Header) (m : RedMeta) : Bool :=
  let c := twChunk (f.trw s e 2)
  let vlen := (f.trw s e 7).toNat
  let n := m.ecnt.toNat
  let o := m.eoff.toNat
  badHeader h || h.bcnt.toNat != redBody h.fmt.toNat m || n == 0 || n > 2048 || n > c || o % 32 != 0 || o % c != 0 || o + n > vlen

/-- The RDU takes the flits of a contribution as they arrive: it has a buffer for it, or will refuse it.
An answer that goes down a child tree needs no buffer (10 R238, R258). DEDUCED (log entry 152). -/
def Fabric.rduTakes (f : Fabric) (s : Nat) (q : QPkt) : Bool :=
  q.route == .rdu && !q.tailIn && 0 < q.held &&
    (q.hdr.kind == 8 || match f.treeAt s q.hdr.group.toNat with
      | none => true
      | some e =>
        let m := redOf (q.pay.extractLsb' 0 256)
        f.contribBad s e q.hdr m || ((f.stopU s).rdu.bufOf q.hdr.group q.hdr.seq (m.rop == 7)).isSome ||
          (f.freeBuf s e q.hdr.group).isSome)

/-- One packet of a buffer is attended to: dead copies, freed flits, and its answer once its tail has
been consumed. -/
def Fabric.attend (f : Fabric) (s key : Nat) (i : Nat) : Fabric :=
  match (f.stopQ s key)[i]? with
  | none => f
  | some q0 =>
    let (f1, q1) := f.bury s q0
    let (q2, n) := if i = 0 && f1.rduTakes s q1 then (q1.sink, q1.held) else q1.release
    let f2 := (f1.setStopQ s key ((f1.stopQ s key).modify i fun _ => q2)).oweKey s key n
    if q2.left then
      let f3 := f2.setStopQ s key ((f2.stopQ s key).eraseIdx i)
      match q2.route with
      | .eat (some a) => f3.stopAnswer s a
      | _ => f3
    else f2

/-- Every buffer of a stop is attended to, the newest packets first. DEDUCED (log entry 28). -/
def Fabric.reap (f : Fabric) (s : Nat) : Fabric :=
  (f.stopU s).vq.foldl (fun g e =>
    (List.range e.2.length).reverse.foldl (fun h i => h.attend s e.1 i) g) f

/-- Every stop is attended to. -/
def Fabric.reapAll (f : Fabric) : Fabric := (f.stops.map (·.1)).foldl (fun g s => g.reap s) f

end Sys2Proof.Machine
end

