-- ==== Sys2Proof/Machine/Faults.lean ====
section
/-! DEFINITION. Fault collection: sending, evaluating, logging and acting on faults; forced faults;
the error pin; stop control (16). -/

namespace Sys2Proof.Machine

/-! ## Tables (R355, R354) -/

/-- Reset word of a Severity Table entry. -/
def sevReset (code : Nat) : Nat :=
  match kindOfCode code with
  | some k => k.sev + (if k == .regionDeny || k == .rduDomain then 16 else 0)
  | none => 1
def Fabric.sevWord (f : Fabric) (code : Nat) : Word := f.fmu.fault.sevTab.get code (BitVec.ofNat 32 (sevReset code))
def Fabric.clsWord (f : Fabric) (c : Nat) : Word := f.fmu.fault.clsTab.get c 0x10

/-- `SEV` of an entry; 5-7 act as 4. -/
def sevOf (w : Word) : Nat := min 4 (fld w 2 0)

/-! ## FAB_ERR_N (R362) -/

/-- A fault at NOTICE or above pulses the pin for 128 FCC units, once `ALIGNED` has been 1.
DEDUCED (log entry 145). -/
def Fabric.pulse (f : Fabric) : Fabric :=
  if (f.boot.ms.find? 5).isNone then f
  else f.updFmu fun m => { m with pin := { m.pin with
    pulses := if m.pin.pulseEnd.isSome then m.pin.pulses else m.pin.pulses + 1
    pulseEnd := some (f.time.fcc + 128) } }

/-- The level driven on FAB_ERR_N: true released, as it is until `ALIGNED` has been 1. -/
def Fabric.pinReleased (f : Fabric) : Bool :=
  (f.boot.ms.find? 5).isNone || (f.fmu.pin.pulseEnd.isNone && f.fmu.pin.level)

/-! ## The log (R363) -/

/-- A log entry leaves: `UNACK` of the Escalation Table entry it was counted in decreases.
DEDUCED (log entry 111). -/
def FaultState.unlog (s : FaultState) (e : LogEntry) : FaultState :=
  match e.gen with
  | some g => { s with esc := s.esc.map fun x => if x.gen == g then { x with unack := x.unack - 1 } else x }
  | none => s

/-- The effective severity of a logged entry. -/
def LogEntry.eff (e : LogEntry) : Nat := e.rec_.sev.toNat

/-- A fault is logged, displaces the oldest RECORD entry of a full log, or is lost. -/
def FaultState.log1 (s : FaultState) (e : LogEntry) : FaultState :=
  let e := { e with seq := s.logSeq }
  let add (s : FaultState) : FaultState :=
    { s with log := s.log ++ [e], logSeq := s.logSeq + 1
             headSeq := if s.log.isEmpty then s.headSeq + 1 else s.headSeq }
  if s.log.length < 1024 then add s
  else if e.eff == 0 then { s with lost := s.lost + 1 }
  else match takeFirst (fun x => x.eff == 0) s.log with
    | some (old, rest) =>
      let first := (s.log.head?.map fun x => x.eff == 0).getD false
      add { (s.unlog old) with log := rest, displaced := s.displaced + 1
                               headSeq := if first then s.headSeq + 1 else s.headSeq }
    | none => { s with lost := s.lost + 1 }

/-! ## Repairs (R359; 17 R383) -/

def Repair.same (a b : Repair) : Bool := a.rkind == b.rkind && a.unit == b.unit && a.spec == b.spec

/-- The lowest place that no entry holds. DESIGN CHOICE (log entry 134). -/
def freePlace (used : List Nat) : Nat :=
  ((List.range 256).find? fun i => !used.contains i).getD 0

/-- A repair joins the list, which holds 64, unless it is on it. -/
def Fabric.addRepair (f : Fabric) (r : Repair) : Fabric :=
  f.updFmu fun m =>
    if m.fault.repairs.any (Repair.same r) then { m with fault := { m.fault with
      repairs := m.fault.repairs.map fun x => if Repair.same r x then { x with detour := x.detour || r.detour } else x } }
    else if m.fault.repairs.length ≥ 64 then m
    else { m with fault := { m.fault with repairs :=
        m.fault.repairs ++ [{ r with slot := freePlace (m.fault.repairs.map (·.slot)) }] } }

/-- A crossing or fault for which no spare is left. -/
def Fabric.noSpare (f : Fabric) : Fabric :=
  f.updFmu fun m => { m with boards := { m.boards with noSpare := m.boards.noSpare + 1 } }

/-- The wire of a ring input with the largest count of corrections, lowest first, and its count. -/
def LinkWear.worst (w : LinkWear) : Nat × Nat :=
  w.wcount.foldl (fun a e => if e.2 > a.2 then (e.1, e.2) else a) (0, 0)

/-- The sending stop of the link that ends at ring input i of stop s. -/
def Fabric.feeder (f : Fabric) (s i : Nat) : Nat := f.nbr s (opposite i)

/-- The substitution of a wire of a ring input, SPKIND 0x0: the one on the Repair List, else the
lowest free spare; none where no spare is left. -/
def Fabric.wireRepair (f : Fabric) (s i w : Nat) : Option Repair :=
  let br := f.bridge s (opposite i)
  let listed := f.fmu.fault.repairs.filter fun r => r.rkind == 0 && r.unit.toNat == s && fld r.spec 3 0 == i
  match listed.find? fun r => fld r.spec 14 4 == w with
  | some r => some r
  | none =>
    let used := ((f.stopU s).wear.get i {}).spares ++ listed.map fun r => (fld r.spec 17 15, fld r.spec 14 4)
    (freeSpare br used [] w).map fun j =>
      { rkind := 0, unit := BitVec.ofNat 10 s, spec := mkWord [(0, i), (4, w), (15, j)] }

/-- The substitution for retries on a ring input (17 R382): its worst wire, or a retraining. -/
def Fabric.retryRepair (f : Fabric) (s i : Nat) : Option Repair :=
  let (w, n) := ((f.stopU s).wear.get i {}).worst
  if n == 0 then some { rkind := 1, unit := BitVec.ofNat 10 s, spec := mkWord [(0, opposite i)] }
  else f.wireRepair s i w

/-- The VC whose storage holds a buffer entry 0-79 (17 R375). -/
def vcOfEntry (e : Nat) : Nat :=
  if e < 16 then e / 4 else 4 + (e - 16) / 8

/-- The bank substitution of a VC (17 R375), if its input's bank is free. -/
def Fabric.bankRepair (f : Fabric) (s input vc : Nat) : Option Repair :=
  let r : Repair := { rkind := 2, unit := BitVec.ofNat 10 s, spec := mkWord [(0, input), (4, vc)] }
  let other := f.fmu.fault.repairs.any fun x => x.rkind == 2 && x.unit == r.unit && fld x.spec 3 0 == input && x.spec != r.spec
  if ((f.stopU s).spare.bankVc.find? input).isSome || other then none else some r

/-- The repair a kind requests: none where the kind has none; `some none` where no spare is left. -/
def Fabric.repairOf (f : Fabric) (r : FaultRec) : Option (Option Repair) :=
  let ty := fld r.srcid 15 12
  let u := fld r.srcid 9 0
  match kindOfCode r.fkind.toNat with
  | some .linkWithdrawn =>
    if ty == 2 then some (some { rkind := 1, unit := BitVec.ofNat 10 u, spec := mkWord [(0, fld r.info 3 0)], detour := true })
    else none
  | some .linkRetry =>
    if ty == 2 && fld r.info 3 0 < 4 then some (f.retryRepair u (opposite (fld r.info 3 0))) else none
  | some .bufParity =>
    if ty == 2 then
      let i := fld r.info 3 0
      let e := fld r.info 13 7
      some (f.bankRepair u i (if e ≥ 80 then ((f.stopU u).spare.bankVc.get i 0) else vcOfEntry e))
    else none
  | some .pwrWakeFail =>
    some (some { rkind := 0xE, unit := r.info.extractLsb' 0 10, spec := BitVec.ofNat 32 (fld r.info 9 0) })
  | some .treeFail =>
    some (some { rkind := 6, unit := BitVec.ofNat 10 u, spec := mkWord [(0, b2n (!bit r.info 4))] })
  | _ => none

/-! ## CONTAIN (R358) -/

/-- Kinds that carry a port number at INFO[9:0]. -/
def namesPort (k : FaultKind) (info : BitVec 48) : Bool :=
  match k with
  | .truncated => true | .rspDrop => true | .sigDrop => true | .rspUnmatched => true
  | .rspDomain => true | .rspTimeout => true | .xlateProtocol => true | .opPriv => true
  | .fenceInj => true | .pwrHold => true | .pwrWakeFail => true | .sinkStall => true
  | .tgtStall => true | .gwStall => true
  | .guaranteeShed => bit info 41
  | .turnDisarmLost => 1 ≤ fld info 13 10 && fld info 13 10 ≤ 8
  | .drainStuck => 1 ≤ fld info 13 10 && fld info 13 10 ≤ 8
  | _ => false

/-- The target of a CONTAIN action: a domain or a port. -/
def containTarget (cdom : Bool) (r : FaultRec) : Option (Bool × Nat) :=
  let k := kindOfCode r.fkind.toNat
  let ty := fld r.srcid 15 12
  let u := fld r.srcid 9 0
  if cdom then some (true, if k == some .rduDomain then fld r.info 5 0 else fld r.info 47 42)
  else if (match k with | some k => namesPort k r.info | none => false) then some (false, fld r.info 9 0)
  else if ty == 2 && 4 ≤ fld r.info 3 0 && fld r.info 3 0 ≤ 7 then some (false, 4 * u + fld r.info 3 0 - 4)
  else if ty == 3 then some (false, u)
  else none

/-- The fence of a CONTAIN action starts; while the package is stopped it is held (R368).
DEDUCED (log entry 109). -/
def Fabric.applyContain (f : Fabric) (t : Bool × Nat) : Fabric :=
  let mark (f : Fabric) : Fabric := f.updFmu fun m => { m with road := { m.road with contain := true } }
  if t.1 then (mark (f.recordDomFence t.2 true)).addOrders (f.fenceDomOrders t.2 true)
  else if f.fenceable t.2 then (mark f).addOrders (fencePortOrders t.2 true)
  else f
def Fabric.contain (f : Fabric) (t : Bool × Nat) : Fabric :=
  if f.fmu.stop.stopped then
    f.updFmu fun m => { m with fault := { m.fault with heldFences := m.fault.heldFences ++ [t] } }
  else f.applyContain t

/-! ## HALT (R367) -/

/-- The first milestone boundary at least 65,536 fc ahead. -/
def Fabric.haltAt (f : Fabric) : Nat := ceilDiv (f.time.fcc + 65536 * f.unit) msLen * msLen

/-- A HALT action before alignment stops bring-up (R367). `ALIGN_FAIL` gives its die and attempts; for
another kind no reason is stated: a free value. DESIGN CHOICE (log entry 168). -/
def Fabric.haltBoot (f : Fabric) (r : FaultRec) : Fabric :=
  if f.boot.fail || f.boot.done then f
  else if r.fkind.toNat == FaultKind.alignFail.code then f.bootStop 0x03 (fld r.info 3 0) (fld r.info 7 4)
  else f.draw.bootStop (Config.freeValue 8 f.freeCtr).toNat 0 0

/-- A HALT action: the earlier of two pending stops applies. DEDUCED (log entry 137). -/
def Fabric.halt4 (f : Fabric) (r : FaultRec) : Fabric :=
  if !f.time.aligned then f.haltBoot r
  else if f.fmu.stop.stopped then f
  else
    let t := f.haltAt
    f.updFmu fun m => match m.stop.stopAt with
      | some (a, _) => if a ≤ t then m else { m with stop := { m.stop with stopAt := some (t, true), lastAt := t } }
      | none => { m with stop := { m.stop with stopAt := some (t, true), lastAt := t } }

/-! ## Evaluation (R356, R357) -/

/-- The Escalation Table after a fault, the adjustment it is evaluated with, and the generation of
the entry that counts it; none where no entry could be allocated. -/
def FaultState.escalate (s : FaultState) (srcid : BitVec 16) (cls : Nat) (noesc : Bool) :
    FaultState × Nat × Option Nat :=
  let hit (e : EscEntry) : Bool := e.srcid == srcid && e.cls.toNat == cls
  match s.esc.find? hit with
  | some e =>
    let adj := if !noesc && e.unack > 0 then min 4 (e.adj + 1) else e.adj
    ({ s with esc := s.esc.map fun x => if hit x then { x with adj := adj, unack := x.unack + 1, qrun := 0 } else x },
      adj, some e.gen)
  | none =>
    if s.esc.length < 256 then
      let e : EscEntry :=
        { srcid := srcid, cls := BitVec.ofNat 4 cls, unack := 1, gen := s.gen, slot := freePlace (s.esc.map (·.slot)) }
      ({ s with esc := s.esc ++ [e], gen := s.gen + 1 }, 0, some s.gen)
    else (s, 1, none)

/-- The owner of a scrubbed line (08 R206): flag and domain. -/
def Fabric.ownerOf (f : Fabric) (r : FaultRec) : Option (BitVec 6) :=
  let w := f.fmuTab 1 (fld r.info 40 30)
  if bit w 31 then some (w.extractLsb' 0 6) else none

/-- A fault is evaluated: severity, log, and the actions of its level and every lower one. -/
def Fabric.evaluate (f : Fabric) (r : FaultRec) : Fabric :=
  let code := r.fkind.toNat
  let w := f.sevWord code
  let noesc := bit w 5
  let (fs, adj, gen) := f.fmu.fault.escalate r.srcid (fld r.fclass 3 0) noesc
  let eff := if noesc then sevOf w else min 4 (sevOf w + adj)
  let le : LogEntry :=
    { rec_ := { r with sev := BitVec.ofNat 3 eff }, tabSev := w.extractLsb' 0 3
      esc := gen.isNone || eff > sevOf w, owner := if code == 0x28 then f.ownerOf r else none
      seq := 0, gen := gen }
  let f1 := f.updFmu fun m => { m with fault := fs.log1 le }
  if eff == 0 then f1
  else
    let f2 := (f1.updFmu fun m => { m with fault := { m.fault with
      counts := m.fault.counts.upd code 0 (· + 1) } }).pulse
    if eff == 1 then f2
    else
      let f3 := match f2.repairOf r with
        | some (some x) => f2.addRepair x
        | some none => f2.noSpare
        | none => f2
      if eff == 2 then f3
      else
        let f4 := match containTarget (bit w 4) r with
          | some t => f3.contain t
          | none => f3
        if eff == 3 then f4 else f4.halt4 r

/-- FAULT_EVALUATE (R356): the oldest fault that has reached the FMU. -/
def execFaultEvaluate (s : State) : Host.Outcome State Fault Refusal :=
  s.run fun f => f.when f.live <|
    fun f =>
      match f.fmu.fault.arrived with
      | [] => f
      | r :: rest =>
        (f.updFmu fun m => { m with fault := { m.fault with arrived := rest } }).evaluate r

/-! ## Sending (R353; 06 R134) -/

/-- A stop's FAULT is routed as R445 routes its answers, from its local port 0. DEDUCED (log entry 151). -/
def Fabric.stopFault (f : Fabric) (s : Nat) (r : FaultRec) : Fabric :=
  (f.takeFlt (.stop s)).stopAnswer s (faultPkt (f.node (4 * s)) (4 * s) r)

/-- FAULT_SEND (R353): the unit's oldest fault leaves for the FMU. DESIGN CHOICE (log entry 13). -/
def execFaultSend (unit : UnitId) (s : State) : Host.Outcome State Fault Refusal :=
  s.run fun f => f.when (f.moving && f.fmu.prog.open_ && f.mgtCredit unit ≥ 65536) <|
    fun f =>
      match (f.fltOf unit).waiting, unit with
      | [], _ => f
      | r :: _, .ni p => if f.mgtPortFree p then f.niFault p unit r else f
      | r :: _, .slice d => if f.mgtPortFree (slicePort d) then f.niFault (slicePort d) unit r else f
      | r :: _, .stop s => f.stopFault s r
      | _ :: _, .fmu => f

/-! ## Forcing (R361, R449) -/

/-- The kinds the FMU raises. -/
def fmuKinds : List FaultKind :=
  [.tickMiss, .tickPhase, .mscMismatch, .mscFrame, .alignFail, .timeRefused, .pwrHold, .pwrWakeFail,
   .turnFail, .turnDisarmLost, .drainStuck, .guaranteeShed, .treeBroken]
/-- The kinds a stop raises, those of its links, bridge endpoints and RDU among them. -/
def stopKinds : List FaultKind :=
  [.frameErr, .hdrCheck, .hopLimit, .creditOverrun, .linkRetry, .linkWithdrawn, .bufParity, .rspDrop,
   .sigDrop, .fenceInj, .mcLeafDrop, .rduTimeout, .rduAnchor, .rduDomain, .sinkStall]
/-- The kinds an NI of a kind raises. -/
def niKinds (kind : Nat) : List FaultKind :=
  [.frameErr, .hdrCheck, .truncated, .creditOverrun, .linkRetry, .rspDrop, .sigDrop, .rspUnmatched,
   .rspDomain, .rspTimeout, .xcreditSeq] ++
  (if kind == 1 then [.xlateProtocol, .opPriv] else []) ++
  (if kind == 2 then [.scrubPoison, .readPoison, .mcProtocol, .regionDeny, .tgtStall] else []) ++
  (if kind == 3 then [.mcRelayFail, .rdRelayFail, .gwStall, .xcreditOverrun] else [])

/-- A unit of source type ty raises the forced kind of a word. -/
def forcedRec (ty unit : Nat) (k : FaultKind) (w : Word) (stamp : Nat) : FaultRec :=
  mkFault ty unit k.code k.cls true (fld w 11 8) stamp

/-- A write to a fault-force register. -/
def Fabric.force (f : Fabric) (u : UnitId) (w : Word) : Fabric :=
  if !bit w 31 then f
  else match kindOfCode (fld w 7 0) with
  | none => f
  | some k =>
    match u with
    | .fmu => if fmuKinds.contains k then f.updFmu fun m => { m with fault := { m.fault with
        arrived := m.fault.arrived ++ [forcedRec 0 0 k w f.time.fcc] } } else f
    | .slice _ => f
    | .stop s => if stopKinds.contains k then
        f.updFlt u fun q => if f.fmu.stop.stopped then { q with held := q.held ++ [w] }
          else q.push f.fmu.prog.open_ (forcedRec 2 s k w (f.fccOf (dieOfStop s))) else f
    | .ni p => if (niKinds (f.kind p)).contains k then
        f.updFlt u fun q => if f.fmu.stop.stopped then { q with held := q.held ++ [w] }
          else q.push f.fmu.prog.open_ (forcedRec 3 p k w (f.fccOf (dieOfPort p))) else f

/-- FAULT_FORCE (R361). DEDUCED (log entry 130); DESIGN CHOICE (log entry 69). -/
def execFaultForce (unit : UnitId) (word : Word) (s : State) : Host.Outcome State Fault Refusal :=
  s.run fun f => f.onBus (match unit with
      | .ni p => f.kind p != 0 && f.powered p
      | .stop t => t < nStops f.variant
      | _ => true) fun f => f.force unit word

/-! ## The pin and the acknowledges (R362, R364, R371; 17 R387) -/

/-- FAB_ERR_PULSE_END (R362). -/
def execFabErrPulseEnd (s : State) : Host.Outcome State Fault Refusal :=
  s.run fun f => f.when f.live <|
    fun f => match f.fmu.pin.pulseEnd with
      | some t => if f.due t then (f.reach t).updFmu fun m => { m with pin := { m.pin with pulseEnd := none } } else f
      | none => f

/-- An acknowledge of `FMU_FLOG_HEAD`. DEDUCED (log entry 111). -/
def Fabric.flogAck (f : Fabric) : Fabric :=
  f.updFmu fun m => match m.fault.log with
    | [] => m
    | e :: rest => { m with fault := { (m.fault.unlog e) with
        log := rest, lastLog := some e, headSeq := if rest.isEmpty then m.fault.headSeq else m.fault.headSeq + 1 } }

/-- FLOG_ACK (R364). -/
def execFlogAck (s : State) : Host.Outcome State Fault Refusal :=
  s.run fun f => f.onBus true Fabric.flogAck

/-- Acknowledges of the snapshot result and of the wear record. -/
def Fabric.snapAck (f : Fabric) : Fabric := f.updRes fun r => { r with snap := r.snap.ack }
def Fabric.wearAck (f : Fabric) : Fabric := f.updRes fun r => { r with wear := r.wear.ack }

/-- SNAP_STAT_ACK (R371). -/
def execSnapStatAck (s : State) : Host.Outcome State Fault Refusal :=
  s.run fun f => f.onBus true Fabric.snapAck

/-- WEAR_LAST_ACK (17 R387). -/
def execWearLastAck (s : State) : Host.Outcome State Fault Refusal :=
  s.run fun f => f.onBus true Fabric.wearAck

/-! ## Resume (R370) -/

/-- A write of `RESUME` = 1 while stopped. DEDUCED (log entry 137). -/
def Fabric.resumeWrite (f : Fabric) : Fabric :=
  if f.fmu.stop.stopped && f.fmu.stop.resumeAt.isNone then
    f.updFmu fun m => { m with stop := { m.stop with resumeAt := some f.haltAt } }
  else f

/-- Faults held by a frozen unit are raised as it resumes, stamped with that fc (R368). -/
def FaultQ.release (q : FaultQ) (opened : Bool) (ty unit stamp : Nat) : FaultQ :=
  q.held.foldl (fun q w => match kindOfCode (fld w 7 0) with
    | some k => q.push opened (forcedRec ty unit k w stamp)
    | none => q) { q with held := [] }

/-- At the resume instant every unit goes on and the held fences are applied. -/
def Fabric.resumeNow (f : Fabric) : Fabric :=
  let op := f.fmu.prog.open_
  let f1 := { f with
    stops := f.stops.mapAll fun s x => { x with flt := x.flt.release op 2 s (f.fccOf (dieOfStop s)) }
    nis := f.nis.mapAll fun p n => { n with flt := n.flt.release op 3 p (f.fccOf (dieOfPort p)) } }
  let f2 := f1.updFmu fun m => { m with
    stop := { m.stop with stopped := false, resumeAt := none }, fault := { m.fault with heldFences := [] } }
  f.fmu.fault.heldFences.foldl (fun g t => g.applyContain t) f2

/-- RESUME (R370). -/
def execResume (s : State) : Host.Outcome State Fault Refusal :=
  s.run fun f => f.onBus true Fabric.resumeWrite

end Sys2Proof.Machine
end

