-- ==== Sys2Proof/Machine/Crossbar.lean ====
section
/-! DEFINITION. The crossbar of a stop: the requests of its buffers, the allocator, the ring-through path,
and a flit that leaves on an output (05 R104, R107-R109, R114, R122; 06 R129, R130, R136; log entries 123,
124, 146, 162). -/

namespace Sys2Proof.Machine

/-! ## Requests at the allocator (05 R107, R108) -/

/-- A copy whose next flit can be sent: the input and buffer it lies in, and its copy's number. -/
structure Req where
  input : Nat
  key : Nat
  branch : Nat
  out : Nat
  vc : Nat
  deriving DecidableEq, Repr

/-- The class of a request's VC. -/
def Req.cls (r : Req) : Nat := r.key % 12 / 2

/-- The next flit of a copy is in the buffer. -/
def Branch.flitIn (b : Branch) (q : QPkt) : Bool :=
  if b.headSent then b.sent - q.gone < q.body.length else q.headHeld

/-- The downstream VC of a copy (R108). -/
def Fabric.reqVc (f : Fabric) (s input : Nat) (b : Branch) : Nat :=
  2 * b.hdr.cls.toNat + (f.outVc s input b.out b.hdr.vc).toNat

/-- The output can take a flit of the buffer `key` on a VC: link up, nothing to send again, room in the
retry buffer, a credit, and no other packet on the VC. -/
def Fabric.outReady (f : Fabric) (s key : Nat) (b : Branch) (vc : Nat) : Bool :=
  let e : End := .st s b.out
  let t := f.txOf s b.out
  f.linkUp e && t.resend == 0 && t.retry.length < retryLimit (f.endBridge e) && f.canSend e vc &&
    (if b.headSent then NMap.find? t.open_ vc == some key else (NMap.find? t.open_ vc).isNone)

/-- The requests of one buffer: those of the packet at its head. DEDUCED (log entry 124). -/
def Fabric.vcReqs (f : Fabric) (s key : Nat) : List Req :=
  match f.stopQ s key with
  | [] => []
  | q :: _ => match q.route with
    | .go bs => (bs.zip (List.range bs.length)).filterMap fun (b, j) =>
        let vc := f.reqVc s (key / 12) b
        if b.dead.isNone && !b.tailSent && !b.wantsSlot && b.flitIn q && f.outReady s key b vc
        then some { input := key / 12, key := key, branch := j, out := b.out, vc := vc } else none
    | _ => []

/-! ## Owned slots (06 R129, R136) -/

/-- The input VC that owns the present slot of an output. -/
def Fabric.laneOwner (f : Fabric) (s o : Nat) : Option Nat :=
  if !hasRdu f.variant then none
  else
    let w := f.stopTab s 1 (512 * o + f.fccOf (dieOfStop s) % 512)
    if bit w 31 then some (12 * fld w 30 28 + 2 + fld w 27 27) else none

/-- A scheduled flit in its owned slot. -/
def Fabric.owned (f : Fabric) (s : Nat) (r : Req) : Bool := r.cls == 1 && f.laneOwner s r.out == some r.key

/-- A scheduled flit outside its slot may be granted: no other input VC owns the slot. -/
def Fabric.unplaced (f : Fabric) (s : Nat) (r : Req) : Bool := r.cls == 1 && (f.laneOwner s r.out).isNone

/-! ## The input stage (R107) -/

/-- The first element after a pointer, cyclically. -/
def after (ptr : Nat) (l : List Nat) : Option Nat :=
  match l.find? fun x => x > ptr with
  | some x => some x
  | none => l.head?

/-- The VC that an input chooses among those that request, and its requests: `MGT` first, then `SCH` in
an owned slot, then round robin. DEDUCED (log entry 123). -/
def Fabric.inputChoice (f : Fabric) (s i : Nat) (rs : List Req) : List Req :=
  let ptr := (f.stopU s).arb.inPtr.get i 11
  let pick (l : List Req) : List Req :=
    match after ptr (((List.range 12).filter fun v => l.any fun r => r.key % 12 == v)) with
    | some v => l.filter fun r => r.key % 12 == v
    | none => []
  let mgt := rs.filter fun r => r.cls == 0
  let sch := rs.filter (f.owned s)
  if !mgt.isEmpty then pick mgt else if !sch.isEmpty then pick sch else pick rs

/-- The requests that leave the input stage. -/
def Fabric.requests (f : Fabric) (s : Nat) : List Req :=
  let all := (f.stopU s).vq.flatMap fun v => f.vcReqs s v.1
  (List.range 9).flatMap fun i => f.inputChoice s i (all.filter fun r => r.input == i)

/-! ## The output stage (R107; 06 R129, R130) -/

/-- The round-robin pointer of an output (R107). -/
def Fabric.outPtr (f : Fabric) (s o : Nat) : Nat :=
  (f.stopU s).arb.outPtr.get o ((fld (f.stopReg s 0x204) 15 0 + 3 * o) % 8)

/-- The request granted among those of one class. DEDUCED (log entry 123). -/
def Fabric.rrPick (f : Fabric) (s o : Nat) (l : List Req) : Option Req :=
  match after (f.outPtr s o) ((List.range 9).filter fun i => l.any fun r => r.input == i) with
  | some i => l.find? fun r => r.input == i
  | none => none

/-- The quantum of a shared class, 0 `REQ` to 3 `FWD` (06 R148). -/
def Fabric.drrQuantum (f : Fabric) (s c : Nat) : Nat := max 1 (fld (f.stopReg s 0x220) (8 * c + 7) (8 * c))

/-- The DRR step of an output (06 R130): the class served, and what it leaves of deficits and `cur`. -/
def Fabric.drrStep (f : Fabric) (s o : Nat) (e : List Nat) : Option Nat × Arb :=
  let a := (f.stopU s).arb
  let df := (List.range 4).foldl (init := a.deficits) fun m c => if e.contains c then m else NMap.put m (4 * o + c) 0
  let cur := a.cur.get o 3
  let stay := e.contains cur && NMap.get df (4 * o + cur) 0 != 0
  match if stay then some cur else after cur e with
  | none => (none, { a with deficits := df })
  | some c =>
    let left := if stay then NMap.get df (4 * o + c) 0 else f.drrQuantum s c
    (some c, { a with deficits := NMap.put df (4 * o + c) (left - 1), cur := a.cur.put o c })

/-- The grant of an output, with the arbitration state as it becomes. DEDUCED (log entry 123). -/
def Fabric.grant (f : Fabric) (s o : Nat) (l : List Req) : Option Req × Arb :=
  let a := (f.stopU s).arb
  let mgt := l.filter fun r => r.cls == 0
  let sch := l.filter (f.owned s)
  let late := l.filter (f.unplaced s)
  let shared := l.filter fun r => r.cls ≥ 2
  if !mgt.isEmpty then (f.rrPick s o mgt, a)
  else if !sch.isEmpty then (f.rrPick s o sch, a)
  else if !late.isEmpty then (f.rrPick s o late, { a with late := a.late + 1 })
  else
    let (c, a1) := f.drrStep s o ((List.range 4).filter fun c => shared.any fun r => r.cls == c + 2)
    match c with
    | some c => (f.rrPick s o (shared.filter fun r => r.cls == c + 2), a1)
    | none => (none, a1)

/-! ## A flit leaves a stop (R104, R108, R122; 19 R413, R418) -/

/-- The mark of a head that joins a downstream VC (R122): 0 none, 1 mild, 2 severe. DEDUCED (log entry 146). -/
def Fabric.markOf (f : Fabric) (s o vc : Nat) : Nat :=
  let w := f.stopReg s 0x200
  let t := f.txOf s o
  let br := f.bridge s o
  let occ : Int := if br then ((t.used.map (·.2)).sum : Nat) else (vcDepth vc : Int) - t.credits.get vc (vcDepth vc)
  let sev := if br then fld w 31 24 else fld w 7 4
  let mild := if br then fld w 23 16 else fld w 3 0
  if !bit w 8 || vc < 4 then 0 else if occ > (sev : Int) then 2 else if occ > (mild : Int) then 1 else 0

/-- The larger of two small fields. -/
def maxBits {w : Nat} (a b : BitVec w) : BitVec w := if a.toNat < b.toNat then b else a

/-- The header of a head as it leaves on an output (03 R67). -/
def Fabric.leaving (f : Fabric) (s : Nat) (b : Branch) (vc : Nat) : Header :=
  let m : BitVec 2 := BitVec.ofNat 2 (f.markOf s b.out vc)
  { b.hdr with
    vc := BitVec.ofNat 1 vc, hops := if b.out < 4 then b.hdr.hops + 1 else b.hdr.hops
    mark := maxBits b.hdr.mark m }

/-- The data bits of a head with its copy's `AUX`. -/
def headBits (h : Header) (pay : BitVec 768) (aux : BitVec 256) : BitVec 1024 :=
  let top : BitVec 512 := pay.extractLsb' 256 512
  let low : BitVec 768 := top ++ aux
  Header.toBits h ++ low

/-- The counts of an output for a flit sent (19 R413). DEDUCED (log entry 146). -/
def BoardCnt.sent (c : BoardCnt) (head : Bool) (mark : Nat) : BoardCnt :=
  { c with
    flits := c.flits + 1, heads := c.heads + b2n head
    mild := c.mild + b2n (head && mark == 1), severe := c.severe + b2n (head && mark == 2) }

/-- A hop record (19 R418): ring outputs, where `EN` and `HOPS` are 1. -/
def Fabric.traceHop (f : Fabric) (s o : Nat) (h : Header) : Fabric :=
  let d := dieOfStop s
  f.when (o < 4 && h.trace == 1 && f.tracing d && bit (f.niReg (slicePort d) 0x1310) 30) fun f =>
    f.traceStop s (traceRec 3 (f.fccOf d) (tracePkt (2 * 2 ^ 12 + s) o h))

/-- A local output that sends ends its stall episode (13 R314). -/
def StopObs.sinkSent (x : StopObs) (o now : Nat) : StopObs :=
  if o < 4 then x else { x with sinkEpisode := x.sinkEpisode.filter (· != o), sinkSince := x.sinkSince.put o now }

/-- The packet at the head of a buffer with a copy changed. -/
def QPkt.updBranch (q : QPkt) (j : Nat) (g : Branch → Branch) : QPkt :=
  match q.route with
  | .go bs => { q with route := .go (bs.modify j g) }
  | _ => q

/-- The slot of a leaf copy echoes the mark of its head (03 R78). -/
def Fabric.markSlot (f : Fabric) (s : Nat) (slot : Option Nat) (m : BitVec 2) : Fabric :=
  match slot with
  | none => f
  | some n => f.updStop s fun x => { x with leaf := match x.leaf.find? n with
      | some l => x.leaf.put n { l with hdr := { l.hdr with mark := maxBits l.hdr.mark m } }
      | none => x.leaf }

/-- A granted request sends its flit. -/
def Fabric.sendFlit (f : Fabric) (s : Nat) (r : Req) : Fabric :=
  match f.stopQ s r.key with
  | [] => f
  | q :: rest =>
    match q.route with
    | .go bs => match bs[r.branch]? with
      | none => f
      | some b =>
        let e : End := .st s r.out
        let head := !b.headSent
        let h := f.leaving s b r.vc
        let mark := if head then f.markOf s r.out r.vc else 0
        let i := b.sent - q.gone
        let single := q.tailIn && q.body.isEmpty && q.gone == 0
        let last := if head then single else q.tailIn && i + 1 == q.body.length
        let ft := if head then (if single then ftSingle else ftHead) else if last then ftTail else ftBody
        let d := if head then headBits h q.pay b.aux else q.body.getD i 0
        let side : BitVec 4 := BitVec.ofNat 4 (b.slot.getD 0)
        let b1 : Branch := { b with headSent := true, sent := if head then b.sent else b.sent + 1, tailSent := last }
        let f1 := (f.sendNew e ft r.vc d side).updTx e fun t =>
          { t with open_ := if last then t.open_.del r.vc else t.open_.put r.vc r.key }
        let f2 := f1.setStopQ s r.key (q.updBranch r.branch (fun _ => b1) :: rest)
        let f3 := f2.updStop s fun x => { x with
          arb := { x.arb with sentAt := x.arb.sentAt.put r.out f.time.fcc }
          obs := { (x.obs.sinkSent r.out f.time.fcc) with
            board := x.obs.board.upd r.out {} fun c => c.sent head mark } }
        if head then (f3.markSlot s b.slot h.mark).traceHop s r.out h else f3
    | _ => f

/-- The flit follows a head that took the ring-through path. -/
def Fabric.followsThrough (f : Fabric) (s : Nat) (r : Req) : Bool :=
  match f.stopQ s r.key with
  | q :: _ => match q.route with
    | .go bs => ((bs[r.branch]?).map (·.through)).getD false
    | _ => false
  | [] => false

/-- An output grants and sends: flits to be sent again go first (R114). DEDUCED (log entry 124). -/
def Fabric.serveOutput (f : Fabric) (s o : Nat) (l : List Req) : Fabric :=
  let e : End := .st s o
  if (f.txOf s o).resend > 0 && f.linkUp e then
    (f.sendAgain e).updStop s fun x => { x with obs := { x.obs with
      board := x.obs.board.upd o {} fun c => { c with flits := c.flits + 1 } } }
  else
    let (g, a) := f.grant s o l
    let f1 := f.updStop s fun x => { x with arb := a }
    match g with
    | none => f1
    | some r =>
      if l.length == 1 && f.followsThrough s r then f.sendFlit s r
      else (f1.updStop s fun x => { x with arb := { x.arb with
        outPtr := x.arb.outPtr.put o r.input, inPtr := x.arb.inPtr.put r.input (r.key % 12) } }).sendFlit s r

/-! ## The ring-through path (R109) -/

/-- An `MGT` packet at the head of some buffer waits for an output. -/
def Fabric.mgtWaitsFor (f : Fabric) (s o : Nat) : Bool :=
  (f.stopU s).vq.any fun v => v.1 % 12 < 2 && match v.2 with
    | q :: _ => match q.route with
      | .go bs => bs.any fun b => b.out == o && !b.tailSent
      | _ => false
    | [] => false

/-- A unicast head that goes straight on, in the cycle it arrives on a ring input, takes the ring-through
path where nothing contends with it: it leaves at once, and the allocator's pointers stay (R109).
DEDUCED (log entry 162). -/
def Fabric.ringThrough (f : Fabric) (s key : Nat) : Fabric :=
  match f.stopQ s key, f.vcReqs s key with
  | [q], [r] =>
    let alone := ((f.stopU s).vq.flatMap fun v => f.vcReqs s v.1).all fun x => x.out != r.out || x == r
    let busy := NMap.find? (f.stopU s).arb.sentAt r.out == some f.time.fcc
    if (f.stopU s).spare.sliceAt != some f.time.fcc && key / 12 < 4 && r.out == key / 12 && q.at_ == f.time.fcc && q.hdr.dmode != 2 && r.cls != 0 && r.cls != 1 && q.gone == 0 &&
        alone && !busy && !f.mgtWaitsFor s r.out && (f.laneOwner s r.out).isNone
    then (f.setStopQ s key [q.updBranch r.branch fun b => { b with through := true }]).sendFlit s r
    else f
  | _, _ => f

end Sys2Proof.Machine
end

