-- ==== Sys2Proof/Machine/Stops.lean ====
section
/-! DEFINITION. A head at a stop: its examination, replication and merging; leaf slots and leaf
reports; flits received (03 R63, R81; 04 R89; 05 R112-R116, R125; 09 R215-R221; 10 R238, R240). -/

namespace Sys2Proof.Machine

/-- The outcome of an examination: the fabric and the packet's route. -/
abbrev Examined := Fabric × Route

/-- One copy with the packet's own header. -/
def QPkt.branch (q : QPkt) (o : Nat) : Branch := { out := o, hdr := q.hdr, aux := q.pay.extractLsb' 0 256 }

/-- A copy for a ring output, dead where the link is withdrawn (05 R115). -/
def Fabric.ringBranch (f : Fabric) (s : Nat) (q : QPkt) (o : Nat) : Branch :=
  { q.branch o with dead := if o < 4 && (f.txOf s o).state == .withdrawn then some .linkFail else none }

/-! ## Unicast (R81 steps 3-7; R89) -/

def Fabric.examineUnicast (f : Fabric) (s input : Nat) (q : QPkt) : Examined :=
  let h := q.hdr
  match f.stopAct s input (q.side.extractLsb' 0 2) h with
  | .framing => (f.raiseStop s .frameErr (infoIcv input h.cls.toNat h.vc.toNat), .drop)
  | .refuse st => f.stopRefuse s h st
  | .out o => (f, .go [f.ringBranch s q o])
  | .eject p =>
    match f.portCheck (4 * s + p) h with
    | none => (f, .go [q.branch (4 + p)])
    | some st => (f.portRefused (4 * s + p) st).stopRefuse s h st

/-! ## Multicast (09 R215) -/

/-- The Group Valid Map of a stop (09 R210; 20 R438): bit g of the group directory of its die. -/
def Fabric.groupValid (f : Fabric) (s : Nat) (g : Nat) (e : BitVec 1) : Bool :=
  bit (f.niEp (dirPort (dieOfStop s)) e 6 (16 * g)) 31

/-- The output that bit t of a mask takes at stop s: 0-3 a ring, 4 the local copy, none dropped.
DEDUCED (log entry 33). -/
def Fabric.mcOut (f : Fabric) (s input : Nat) (injDir : BitVec 2) (e : BitVec 1) (t : Nat) : Option Nat :=
  match f.hop s t e with
  | none => none
  | some a =>
    if a == .eject && t != s then none
    else if input ≥ 4 && injDir != 0 then some (if injDir == 1 then 0 else 1)
    else if input < 2 then
      match a with | .pass => some input | .plusY => some 2 | .minusY => some 3 | .eject => some 4
    else if xOf t != xOf s then none
    else if input < 4 then (if a == .eject then some 4 else some input)
    else match a with | .pass => none | .plusY => some 2 | .minusY => some 3 | .eject => some 4

/-- A mask of stop numbers. -/
def maskOf (ts : List Nat) : Nat := (ts.map fun t => 2 ^ t).sum

/-- DEDUCED (log entries 33, 34). -/
def Fabric.examineMcast (f : Fabric) (s input : Nat) (q : QPkt) : Examined :=
  let h := q.hdr
  let dir : BitVec 2 := q.side.extractLsb' 0 2
  let ts := bitsSet 256 (q.pay.extractLsb' 0 256).toNat
  if !f.groupValid s h.group.toNat h.epoch then
    (f.stopMcLost s h (maskOf ts) .unreachable, .drop)
  else
    let bitsTo (o : Option Nat) : List Nat := ts.filter fun t => f.mcOut s input dir h.epoch t == o
    let lost := bitsTo none
    let ring := ([0, 1, 2, 3].filter fun o => !(bitsTo (some o)).isEmpty).map fun o =>
      { f.ringBranch s q o with aux := BitVec.ofNat 256 (maskOf (bitsTo (some o))) }
    let here : List Branch := if (bitsTo (some 4)).isEmpty then [] else
      [{ q.branch 4 with aux := BitVec.ofNat 256 (maskOf (bitsTo (some 4))), wantsSlot := true }]
    let f1 := if lost.isEmpty then f
      else (f.stopMcLost s h (maskOf lost) .unreachable).raiseStop s .mcLeafDrop (h.group.toNat * 2 ^ 16 + s)
    (f1, if (ring ++ here).isEmpty then .drop else .go (ring ++ here))

/-! ## Reductions (10 R238, R240, R255, R256) -/

/-- An `RD_DONE` ejected straight to a local port (R238). -/
def Fabric.ejectDone (f : Fabric) (s p : Nat) (q : QPkt) (st : Status) : Fabric :=
  let h := q.hdr
  let a : Header := Header.seal { answerHdr h 8 st (f.node (4 * s)) (4 * s) with
    cls := 3, dmode := 2, dest := BitVec.ofNat 28 (f.node (4 * s) * 1024), group := h.group, fmt := h.fmt
    epoch := f.epoch }
  let x : Packet := { hdr := a, aux := q.pay.extractLsb' 0 256 }
  match f.portCheck (4 * s + p) a with
  | none => f.stopSend s x [Packet.branch x (4 + p)]
  | some t => (f.portRefused (4 * s + p) t).stopRspDrop s a t

/-- An `RD_CONTRIB` that a stop refuses: answered to the port it came from, else discarded. -/
def Fabric.refuseContrib (f : Fabric) (s input : Nat) (q : QPkt) (st : Status) : Examined :=
  if input ≥ 4 then (f.ejectDone s (input - 4) q st, .drop) else (f.stopRspDrop s q.hdr st, .drop)

def Fabric.rduDomainFault (f : Fabric) (s : Nat) (h : Header) : Fabric :=
  f.raiseStop s .rduDomain (h.group.toNat * 2 ^ 32 + h.domain.toNat)

def Fabric.examineContrib (f : Fabric) (s input : Nat) (q : QPkt) : Examined :=
  let h := q.hdr
  let tree := h.group.toNat
  match f.grantOf s tree, f.treeAt s tree with
  | some (_, dom), some e =>
    let w := f.trw s e 1
    if dom != h.domain.toNat then (f.rduDomainFault s h, .drop)
    else if input ≥ 4 && !(twMembers w).testBit (input - 4) then (f.ejectDone s (input - 4) q .malformed, .drop)
    else if input < 4 && !(twIn w).testBit input then (f.rduDomainFault s h, .drop)
    else if twRole w == 1 then (f, .go [f.ringBranch s q (twOut w)])
    else (f, .rdu)
  | _, _ => f.refuseContrib s input q .unreachable

/-- The copies of an `RD_DONE` that goes down a tree from stop s: reverse outputs of `IN`, then local
members; a member that its stop refuses is left out (R240, R255). DEDUCED (log entry 90). -/
def Fabric.downCopies (f : Fabric) (s : Nat) (w : Word) (h : Header) (mk : Nat → Branch) : List Branch × Fabric :=
  let ring := ((List.range 4).filter fun i => (twIn w).testBit i).map fun i => mk (opposite i)
  (List.range 4).foldl (fun (acc : List Branch × Fabric) p =>
    if !(twMembers w).testBit p then acc
    else match acc.2.portCheck (4 * s + p) h with
      | none => (acc.1 ++ [mk (4 + p)], acc.2)
      | some st => (acc.1, (acc.2.portRefused (4 * s + p) st).stopRspDrop s h st)) (ring, f)

/-- An `RD_DONE` at a stop. One in `FWD` comes from the gateway at the root of a child tree, whose RDU
takes it (R258). -/
def Fabric.examineDone (f : Fabric) (s : Nat) (q : QPkt) : Examined :=
  let h := q.hdr
  let tree := h.group.toNat
  match f.grantOf s tree, f.treeAt s tree with
  | some (_, dom), some e =>
    if dom != h.domain.toNat then (f.rduDomainFault s h, .drop)
    else if h.cls == 5 then (f, .rdu)
    else
      let (bs, f1) := f.downCopies s (f.trw s e 1) h (f.ringBranch s q)
      (f1, if bs.isEmpty then .drop else .go bs)
  | _, _ => (f.stopRspDrop s h .unreachable, .drop)

/-! ## The examination (R81) -/

/-- A head that waits on VC number `vc` of an input is examined, step by step; the first that fails
decides. DEDUCED (log entries 32, 151). -/
def Fabric.examine (f : Fabric) (s input vc : Nat) (q : QPkt) : Examined :=
  let h := q.hdr
  let k := h.kind.toNat
  let p := 4 * s + (input - 4)
  let loc := input ≥ 4
  let icv := infoIcv input (vc / 2) (vc % 2)
  if !Header.checks h then (f.raiseStop s .hdrCheck (infoIcv input 0 (vc % 2)), .drop)
  else if h.hops.toNat ≥ 40 then
    (f.raiseStop s .hopLimit (icv + h.rport.toNat * 2 ^ 16 + h.domain.toNat * 2 ^ 42), .drop)
  else if loc && (((k == kMgtOp || k == kGather) && (f.kind p == 1 || f.kind p == 2)) ||
      ((f.sport p).fence && h.cls != 0 && !isAnswerKind k)) then
    (f.raiseStop s .fenceInj (p + k * 2 ^ 12), .drop)
  else if loc && q.side.extractLsb' 0 2 == (3 : BitVec 2) then (f.raiseStop s .frameErr icv, .drop)
  else if k == kMcData && h.cls == 4 then f.examineMcast s input q
  else if k == kContrib && h.cls == 4 then f.examineContrib s input q
  else if k == kDone && (h.cls == 3 || h.cls == 5) then f.examineDone s q
  else f.examineUnicast s input q

/-! ## Merging in flight (05 R125; 09 R221) -/

/-- An earlier packet of the queue that has not been granted. -/
def QPkt.waiting (q : QPkt) : Bool :=
  match q.route with
  | .go bs => bs.all fun b => !b.headSent && b.dead.isNone
  | .fresh => true
  | _ => false

def sameFlow (a b : Header) : Bool :=
  a.kind == b.kind && a.rport == b.rport && a.domain == b.domain && a.epoch == b.epoch && a.cls == b.cls && a.trace == b.trace

/-- Whether b merges into a. -/
def mergeable (acks : Bool) (a b : QPkt) : Bool :=
  a.waiting && sameFlow a.hdr b.hdr &&
    ((b.hdr.kind == 4 && a.hdr.addr == b.hdr.addr) ||
     (acks && b.hdr.kind == 6 && a.hdr.tag == b.hdr.tag && a.hdr.seq == b.hdr.seq))

/-- The merged head: sums of a SIG, or of an MC_ACK with the higher status. -/
def mergedHead (a b : QPkt) : QPkt :=
  let x := a.pay.extractLsb' 0 256
  let y := b.pay.extractLsb' 0 256
  let top : BitVec 512 := a.pay.extractLsb' 256 512
  let setAux (h : Header) (z : BitVec 256) : QPkt :=
    let route := match a.route with
      | .go bs => Route.go (bs.map fun c => { c with hdr := h, aux := z })
      | r => r
    { a with hdr := h, pay := top ++ z, route := route }
  if b.hdr.kind == 4 then
    setAux { a.hdr with mark := maxBits a.hdr.mark b.hdr.mark }
      (sigAux (sigAddend x + sigAddend y) (min 4095 (sigNcomb x + sigNcomb y)))
  else
    let st := Status.join (statusOfHdr a.hdr) (statusOfHdr b.hdr)
    let low := if (ackLow y).toNat < (ackLow x).toNat then ackLow y else ackLow x
    setAux (Header.seal { a.hdr with
        status := BitVec.ofNat 4 (statusCode st), echo := maxBits a.hdr.echo b.hdr.echo
        mark := maxBits a.hdr.mark b.hdr.mark })
      (mcAckAux (ackNack x + ackNack y) (ackNfenced x + ackNfenced y) low)

/-- A packet of a queue merges into an earlier one: the queue without it, none where it does not. -/
def mergeInto (acks : Bool) (i : Nat) (l : List QPkt) : Option (List QPkt) :=
  match l[i]? with
  | none => none
  | some b =>
    if !b.tailIn || !Header.checks b.hdr then none
    else match (l.take i).findIdx? fun a => mergeable acks a b with
      | none => none
      | some j => some ((l.modify j fun a => mergedHead a b).eraseIdx i)

/-! ## Meanings -/

/-- The oldest head of an input VC that has not been examined acts. -/
def Fabric.headArrives (f : Fabric) (s input vc : Nat) : Fabric :=
  let key := 12 * input + vc
  let l := f.stopQ s key
  match l.findIdx? fun q => q.route == .fresh with
  | none => f
  | some i =>
    match l[i]? with
    | none => f
    | some q =>
      match mergeInto (hasRdu f.variant) i l with
      | some l2 =>
        let f1 := (f.setStopQ s key l2).oweKey s key q.held
        if q.hdr.kind == 6 then f1.updStop s fun x => { x with mcMerged := x.mcMerged + 1 } else f1
      | none =>
        let (f1, r) := f.examine s input vc q
        ((f1.setStopQ s key ((f1.stopQ s key).modify i fun y => { y with route := r })).ringThrough s key).reap s

/-- STOP_HEAD_ARRIVAL (04 R89; 03 R81). -/
def execStopHeadArrival (stop input vc : Nat) (s : State) : Host.Outcome State Fault Refusal :=
  s.run fun f => f.when (f.moving && stop < nStops f.variant && input < 8 && vc < 12) <|
    fun f => f.headArrives stop input vc

/-- A waiting local copy obtains a leaf slot: its ports are examined (R218, R219). DEDUCED (log entry 90). -/
def Fabric.leafExamine (f : Fabric) (s key i slot : Nat) (q : QPkt) : Fabric :=
  let h := q.hdr
  let ps := leafPorts s h
  let res := ps.map fun p => (p, f.portCheck p h)
  let good := (res.filter fun r => r.2.isNone).map (·.1)
  let got : NMap Status := res.foldl (fun m r => match r.2 with
    | some st => NMap.put m (localOfPort r.1) st
    | none => m) []
  let one (b : Branch) : List Branch :=
    if b.wantsSlot then good.map fun p => { b with out := 4 + localOfPort p, wantsSlot := false, slot := some slot } else [b]
  let route (r : Route) : Route := match r with
    | .go bs => let l := bs.flatMap one; if l.isEmpty then .drop else .go l
    | r => r
  let f0 := res.foldl (fun g r => match r.2 with
    | none => g
    | some st => g.portRefused r.1 st) f
  let f1 := f0.setStopQ s key ((f0.stopQ s key).modify i fun y => { y with route := route y.route })
  ((f1.updStop s fun x => { x with leaf := x.leaf.put slot { hdr := h, got := got } }).leafDone s slot).reap s

/-- A packet of a queue waits for a leaf slot. -/
def QPkt.wantsSlot (q : QPkt) : Bool := match q.route with
  | .go bs => bs.any (·.wantsSlot)
  | _ => false

/-- LEAF_SLOT_EXAMINE (R218): the copy obtains the lowest free slot. -/
def execLeafSlotExamine (stop input vc : Nat) (s : State) : Host.Outcome State Fault Refusal :=
  s.run fun f => f.when (f.moving && stop < nStops f.variant && input < 8 && vc < 12) <|
    fun f =>
      let key := 12 * input + vc
      let l := f.stopQ stop key
      match l.findIdx? QPkt.wantsSlot, (f.stopU stop).freeSlot with
      | some i, some slot => match l[i]? with
        | some q => f.leafExamine stop key i slot q
        | none => f
      | _, _ => f

/-! ## Flits (05 R112-R116; 19 R405) -/

/-- Packets that are complete in the receive buffer of an NI. -/
def Ni.complete (n : Ni) : Nat := (n.vq.map fun v => (v.2.filter (·.tailIn)).length).sum

/-- A packet whose tail has just arrived at an NI is counted and traced. -/
def Fabric.countDelivered (f : Fabric) (p : Nat) (before : NMap (List QPkt)) : Fabric :=
  let fresh := (f.ni p).vq.filterMap fun v =>
    let old := ((NMap.get before v.1 []).filter (·.tailIn)).length
    ((v.2.filter (·.tailIn)).drop old).head?
  fresh.foldl (fun g q => (g.niCount p 1 q.hdr).tracePacket p 2 q.hdr) f

/-- The FMU consumes a FAULT packet that has reached its port, at once (13 R297; 16 R353). -/
def Fabric.fmuTakes (f : Fabric) : Fabric :=
  f.niTake fmuPort (fun q => q.hdr.kind.toNat == kFault) fun f x _ =>
    if badHeader x.hdr then f else f.updFmu fun m => { m with fault := { m.fault with
      arrived := m.fault.arrived ++ [faultOf x.area] } }

/-- A flit arrives at an end of a link, and what it changes there is attended to. -/
def Fabric.flitArrives (f : Fabric) (e : LinkEnd) (noise : List Nat) : Fabric :=
  match e with
  | .stopIn s i =>
    let f1 := f.receive (.st s (inputOf i)) noise
    let n := f1.nbr s (inputOf i)
    (f1.reap s).reap n
  | .niIn p =>
    let f1 := (f.receive (.ni p) noise).countDelivered p (f.ni p).vq
    if p = fmuPort then f1.fmuTakes else f1

/-- A link end of the variant whose link is up. -/
def Fabric.endLive (f : Fabric) (e : LinkEnd) : Bool :=
  match e with
  | .stopIn s i =>
    let o := inputOf i
    s < nStops f.variant && i < 8 && !(f.stopU s).spare.bypass && f.linkUp (.st s o) && f.linkUp (f.peer (.st s o)) &&
      (i < 4 || f.kind (4 * s + (i - 4)) != 0)
  | .niIn p => f.kind p != 0 && f.powered p && !(f.stopU (stopOfPort p)).spare.bypass

/-- FLIT_RECEIVE (05 R112). -/
def execFlitReceive (at_ : LinkEnd) (noise : List Nat) (s : State) : Host.Outcome State Fault Refusal :=
  s.run fun f => f.when (f.moving && f.endLive at_) fun f => f.flitArrives at_ noise

/-- ACK_TIMER_EXPIRY (05 R114): the sender whose flits the named end receives rewinds. DEDUCED (log entry 30). -/
def execAckTimerExpiry (at_ : LinkEnd) (s : State) : Host.Outcome State Fault Refusal :=
  s.run fun f => f.when (f.moving && f.endLive at_) <|
    fun f =>
      let e := f.peer (End.ofLink at_)
      match (f.tx e).ackAt with
      | none => f
      | some t =>
        if !f.due t then f
        else
          let f1 := (f.reach t).sendCreditsAgain e
          let f2 := f1.updTx e fun x =>
            { x.rewind (f1.time.fcc + ackLimit (f1.endBridge e) * f1.unit) with run := if x.rewound then x.run + 1 else x.run }
          let f3 := f2.checkRun e
          match e with
          | .st s _ => f3.reap s
          | .ni _ => f3

/-- LINK_SILENCE_TIMEOUT (05 R115): no intact flit has arrived for the limit; the end withdraws.
DEDUCED (log entry 29). -/
def execLinkSilenceTimeout (at_ : LinkEnd) (s : State) : Host.Outcome State Fault Refusal :=
  s.run fun f => f.when f.moving <|
    fun f =>
      match at_ with
      | .niIn _ => f
      | .stopIn s i =>
        let e : End := .st s (inputOf i)
        let t := (f.rx e).lastIntact + silenceLimit (f.endBridge e) * f.unit
        if i < 4 && s < nStops f.variant && f.linkUp e && (f.tx (f.peer e)).state == .withdrawn && f.due t then
          ((f.reach t).withdrawEnd s (inputOf i)).reap s
        else f

end Sys2Proof.Machine
end

