-- ==== Sys2Proof/Machine/Rdu.lean ====
section
/-! DEFINITION. The Reduction Unit: merging, completion, results at the root, hold timers (10
R238-R242, R247, R253, R254, R257). -/

namespace Sys2Proof.Machine

/-! ## Fields of words 3 and 4 (R229) -/

def twHtmo (w : Word) : Nat := fld w 31 16
def twUpnode (w : Word) : Nat := fld w 15 0
def twUp (w : Word) : Bool := bit w 31
def twNtotal (w : Word) : Nat := fld w 28 12
def twUptree (w : Word) : Nat := fld w 11 0

/-- What an entry says of its tree's arithmetic. -/
structure RedCfg where
  rop : Nat
  cfmt : Nat
  rfmt : Nat
  guard : Nat
  pw : Nat
  deriving DecidableEq, Repr

def Fabric.redCfg (f : Fabric) (s e : Nat) : RedCfg :=
  let w := f.trw s e 2
  { rop := twRop w, cfmt := twCfmt w, rfmt := twRfmt w, guard := twGuard w, pw := if twRop w == 0 then twPw w else 0 }

/-! ## Elements of a packet (R238, R245) -/

/-- The elements of a contribution: a native packet is converted, a partial is copied. -/
def contribElems (c : RedCfg) (m : RedMeta) (x : Packet) : List Int :=
  let n := m.ecnt.toNat
  if c.rop == 0 && m.pw != 0 then partialElems (pwBits m.pw.toNat) n x.body
  else nativeElems c.rop c.cfmt c.guard (pwBits c.pw) x.area n x.body

/-- The merge of two elements (R246, R252). -/
def mergeElem (c : RedCfg) (a b : Int) : Int :=
  if c.rop == 0 then redMerge (pwBits c.pw) a b else (redNative c.rop c.cfmt a.toNat b.toNat : Int)

/-- Anchored sums carry anchors, unless their format is an integer. -/
def RedCfg.anchored (c : RedCfg) : Bool := c.rop == 0 && !isIntFmt c.cfmt

/-- The blocks of n elements whose anchors differ. -/
def unequalBlocks (n : Nat) (a b : Bytes) : List Nat :=
  (List.range (ceilDiv n 32)).filter fun j => a.getD j 0 != b.getD j 0

/-- The larger anchor of each block. -/
def maxAnchors (a b : Bytes) : Bytes :=
  (List.range 64).map fun j => maxBits (a.getD j 0) (b.getD j 0)

/-- Elements of the listed blocks become NaN (R247). -/
def poisonBlocks (p : Nat) (js : List Nat) (es : List Int) : List Int :=
  (es.zip (List.range es.length)).map fun x => if js.contains (x.2 / 32) then -(redZ p) else x.1

/-! ## Buffers -/

def Fabric.updBufs (f : Fabric) (s : Nat) (g : NMap RduBuf → NMap RduBuf) : Fabric :=
  f.updStop s fun x => { x with rdu := { x.rdu with bufs := g x.rdu.bufs } }

/-- The first packet of a buffer. -/
def openBuf (c : RedCfg) (e : Nat) (m : RedMeta) (x : Packet) (now : Nat) : RduBuf :=
  let ap := m.rop == 7
  { tree := x.hdr.group, seq := x.hdr.seq, anchorPass := ap, entry := e, merged := 1
    ncontrib := countOf m.ncontrib.toNat, pcount := m.pcount.toNat, ecnt := m.ecnt.toNat, eoff := m.eoff
    anchors := sliceBytes x.area 0 64, elems := if ap then [] else contribElems c m x
    echo := x.hdr.mark, openedAt := now, hdr := x.hdr }

/-- A later packet merges into a buffer. -/
def RduBuf.merge (b : RduBuf) (c : RedCfg) (m : RedMeta) (x : Packet) : RduBuf :=
  let es := if b.anchorPass then []
    else (b.elems.zip (contribElems c m x)).map fun e => mergeElem c e.1 e.2
  let bad := if c.anchored && !b.anchorPass then unequalBlocks b.ecnt b.anchors x.area else []
  { b with merged := b.merged + 1, ncontrib := b.ncontrib + countOf m.ncontrib.toNat
           pcount := min 65535 (b.pcount + m.pcount.toNat), echo := maxBits b.echo x.hdr.mark
           anchors := if b.anchorPass || c.anchored then maxAnchors b.anchors (sliceBytes x.area 0 64) else b.anchors
           elems := poisonBlocks (pwBits c.pw) bad es }

/-! ## Completion (R238, R240, R257) -/

/-- The body of a partial. -/
def RduBuf.bytes (b : RduBuf) (c : RedCfg) : Bytes :=
  if b.anchorPass then []
  else if c.rop == 0 then partialBytes (pwBits c.pw) b.elems
  else b.elems.flatMap fun x => toBytesLE x.toNat (fmtSize c.cfmt)

/-- The AUX of a packet a stop forms from a buffer. -/
def RduBuf.meta (b : RduBuf) (c : RedCfg) (pw : Nat) : BitVec 256 :=
  redAux { rop := if b.anchorPass then 7 else BitVec.ofNat 4 c.rop
           pw := if b.anchorPass then 0 else BitVec.ofNat 2 pw
           guard := BitVec.ofNat 5 c.guard, ncontrib := BitVec.ofNat 17 (b.ncontrib % 65536)
           eoff := b.eoff, ecnt := BitVec.ofNat 12 b.ecnt, pcount := BitVec.ofNat 16 b.pcount }

/-- A header with a body of n bytes. -/
def Header.carry (h : Header) (n : Nat) : Header :=
  Header.seal { h with bcnt := BitVec.ofNat 13 n, len := BitVec.ofNat 6 (1 + ceilDiv n 128) }

/-- The partial of a buffer, on its way up the tree or to a gateway. DEDUCED (log entry 35). -/
def Fabric.partialPkt (f : Fabric) (s : Nat) (b : RduBuf) (c : RedCfg) (up : Option (Nat × Nat)) : Packet :=
  let body := b.bytes c
  let h : Header :=
    { b.hdr with
      cls := if up.isSome then 5 else 4, vc := 0, hops := 0, mark := b.echo, colour := 0, status := 0
      epoch := f.epoch, fmt := BitVec.ofNat 4 c.cfmt, src := BitVec.ofNat 28 (f.node (4 * s) * 1024 + 4 * s)
      rport := 0
      dest := BitVec.ofNat 28 ((match up with | some u => u.1 | none => f.node (4 * s)) * 1024)
      group := match up with | some u => BitVec.ofNat 12 u.2 | none => b.tree
      tag := b.tree }
  { hdr := Header.carry h body.length, area := b.anchors, aux := b.meta c c.pw, body := body }

/-- An `RD_DONE` that a root forms for a chunk. DEDUCED (log entry 35). -/
def Fabric.donePkt (f : Fabric) (s : Nat) (b : RduBuf) (c : RedCfg) (st : Status) (body area : Bytes) : Packet :=
  let e := b.entry
  let raddr := (f.trw s e 5).toNat + (f.trw s e 6).toNat * 2 ^ 32
  let h : Header :=
    { cls := 3, kind := 8, dmode := 2, domain := b.hdr.domain, op := b.hdr.op, trace := b.hdr.trace
      tag := b.tree, seq := b.seq, group := b.tree, epoch := f.epoch, echo := b.echo
      dest := BitVec.ofNat 28 (f.node (4 * s) * 1024), src := BitVec.ofNat 28 (f.node (4 * s) * 1024 + 4 * s)
      status := BitVec.ofNat 4 (statusCode st), addr := BitVec.ofNat 48 raddr
      fmt := BitVec.ofNat 4 (if b.anchorPass then c.cfmt else c.rfmt) }
  { hdr := Header.carry h body.length, area := area, aux := b.meta c 0, body := body }

/-- An `RD_DONE` goes down every child branch of a stop. -/
def Fabric.sendDown (f : Fabric) (s e : Nat) (x : Packet) : Fabric :=
  let mk (o : Nat) : Branch := { Packet.branch x o with
    dead := if o < 4 && (f.txOf s o).state == .withdrawn then some .linkFail else none }
  let (bs, f1) := f.downCopies s (f.trw s e 1) x.hdr mk
  if bs.isEmpty then f1 else f1.stopSend s x bs

/-- The result of a chunk as bytes of `RFMT`, and whether an element saturated (R248, R252). -/
def RduBuf.result (b : RduBuf) (c : RedCfg) : Bytes × Bool :=
  let rs := (b.elems.zip (List.range b.elems.length)).map fun x =>
    if c.rop == 0 then redResult c.cfmt c.rfmt c.guard (pwBits c.pw) ((b.anchors.getD (x.2 / 32) 0).toNat) x.1
    else (redNativeResult c.rop c.cfmt c.rfmt x.1.toNat, false)
  (rs.flatMap fun r => toBytesLE r.1 (fmtSize c.rfmt), rs.any (·.2))

/-- The last step at a root: the answer goes down, with the result where `RES` is 1 and it was stored. -/
def Fabric.rootDown (f : Fabric) (s e : Nat) (x : Packet) (st : Status) : Fabric :=
  let kept := twRes (f.trw s e 2) && (st == .ok || st == .poison || st == .partPoison || st == .saturated)
  let h : Header := { x.hdr with status := BitVec.ofNat 4 (statusCode st) }
  let body := if kept then x.body else []
  f.sendDown s e { x with hdr := Header.carry h body.length, body := body }

/-- A root has every packet of a main pass: its result goes to the root port through a leaf slot
(R240); a wrong count or a refusing port leaves no result (R241). -/
def Fabric.rootMain (f : Fabric) (s k : Nat) (b : RduBuf) (c : RedCfg) : Fabric :=
  let e := b.entry
  let port := 4 * s + (twOut (f.trw s e 1) - 4)
  let drop (f : Fabric) : Fabric := f.updBufs s fun m => m.del k
  let (bytes, sat) := b.result c
  let st0 : Status := if sat then .saturated else .ok
  let st := if b.pcount > 0 then Status.join st0 .poison else st0
  let x := f.donePkt s b c st bytes []
  if b.ncontrib != countOf (twNtotal (f.trw s e 4)) then (drop f).rootDown s e x .malformed
  else match (f.stopU s).freeSlot with
  | none => f
  | some slot =>
    match f.portCheck port x.hdr with
    | some r => ((drop f).portRefused port r).rootDown s e x (Status.join st r)
    | none =>
      let w : RootWait := { slot := slot, entry := e, pkt := x, status := st }
      ((drop f).updStop s fun y => { y with leaf := y.leaf.put slot { hdr := x.hdr, root := some w } }).stopSend s x
        [{ Packet.branch x (twOut (f.trw s e 1)) with slot := some slot }]

/-- A complete buffer acts: a merge stop sends its partial on, a root distributes or ejects. -/
def Fabric.completeBuf (f : Fabric) (s k : Nat) (b : RduBuf) : Fabric :=
  let e := b.entry
  let w1 := f.trw s e 1
  let w4 := f.trw s e 4
  let c := f.redCfg s e
  let drop (f : Fabric) : Fabric := f.updBufs s fun m => m.del k
  if b.merged < twExpect w1 then f
  else if twRole w1 != 3 then
    let x := f.partialPkt s b c none
    let o := twOut w1
    (drop f).stopSend s x [{ Packet.branch x o with
      dead := if o < 4 && (f.txOf s o).state == .withdrawn then some .linkFail else none }]
  else if twUp w4 then
    let port := 4 * s + (twOut w1 - 4)
    let x := f.partialPkt s b c (some (twUpnode (f.trw s e 3), twUptree w4))
    match f.portCheck port x.hdr with
    | some st => ((drop f).portRefused port st).stopRspDrop s x.hdr st
    | none => (drop f).stopSend s x [Packet.branch x (twOut w1)]
  else if b.anchorPass then
    let st : Status := if b.ncontrib != countOf (twNtotal w4) then .malformed else .ok
    (drop f).sendDown s e (f.donePkt s b c st [] b.anchors)
  else f.rootMain s k b c

/-- The root port has reported, or lost, its copy of a result: the answer goes down the tree. -/
def Fabric.rootReported (f : Fabric) (s slot : Nat) (st : Status) : Fabric :=
  match ((f.stopU s).leaf.find? slot).bind (·.root) with
  | none => f
  | some w =>
    let f1 := f.updStop s fun x => { x with leaf := x.leaf.del slot }
    f1.rootDown s w.entry w.pkt (Status.join w.status st)

/-- Results whose port has a status are answered; every complete buffer of a stop that can act does. -/
def Fabric.rduPump (f : Fabric) (s : Nat) : Fabric :=
  let f1 := (f.stopU s).leaf.foldl (fun g l => match l.2.root, l.2.got with
    | some _, (_, st) :: _ => g.rootReported s l.1 st
    | _, _ => g) f
  ((f1.stopU s).rdu.bufs).foldl (fun g b => g.completeBuf s b.1 b.2) f1

/-! ## RDU_CONTRIB (R238) -/

/-- The RDU takes a complete contribution from an input VC.
DEDUCED (log entries 37, 38, 101); DESIGN CHOICE (log entry 99). -/
def Fabric.rduTake (f : Fabric) (s input key i : Nat) (q : QPkt) : Fabric :=
  let h := q.hdr
  let x := q.packet
  let m := redOf x.aux
  let pop (f : Fabric) : Fabric := (f.setStopQ s key ((f.stopQ s key).eraseIdx i)).oweKey s key q.held
  match f.treeAt s h.group.toNat with
  | none => (pop (f.refuseContrib s input q .unreachable).1)
  | some e =>
    if f.contribBad s e h m then pop (f.refuseContrib s input q .malformed).1
    else
      let c := f.redCfg s e
      let count (f : Fabric) : Fabric := f.updStop s fun y => { y with rdu := { y.rdu with merged := y.rdu.merged + 1 } }
      match (f.stopU s).rdu.bufOf h.group h.seq (m.rop == 7) with
      | some (k, b) =>
        let bad := if c.anchored && !b.anchorPass then unequalBlocks b.ecnt b.anchors x.area else []
        let f1 := (pop (count f)).updBufs s fun bs => bs.put k (b.merge c m x)
        let f2 := if c.rop == 1 then f1.updStop s fun y => { y with rdu := { y.rdu with ndet := y.rdu.ndet + 1 } } else f1
        (bad.foldl (fun g j => g.raiseStop s .rduAnchor (h.group.toNat * 2 ^ 32 + b.eoff.toNat + 32 * j)) f2).rduPump s
      | none =>
        match f.freeBuf s e h.group with
        | none => f
        | some k => ((pop (count f)).updBufs s fun bs => bs.put k (openBuf c e m x f.time.fcc)).rduPump s

/-- The root RDU of a child tree distributes the answer its gateway handed it (R258): with the child's
own `RADDR`, and with the body if its `RES` is 1. DEDUCED (log entry 36). -/
def Fabric.rduDown (f : Fabric) (s key i : Nat) (q : QPkt) : Fabric :=
  let h := q.hdr
  let x := q.packet
  let f1 := (f.setStopQ s key ((f.stopQ s key).eraseIdx i)).oweKey s key q.held
  match f1.treeAt s h.group.toNat with
  | none => f1.stopRspDrop s h .unreachable
  | some e =>
    let body := if twRes (f1.trw s e 2) then x.body else []
    let raddr := (f1.trw s e 5).toNat + (f1.trw s e 6).toNat * 2 ^ 32
    let h1 : Header := { h with
      cls := 3, vc := 0, hops := 0, mark := 0, tag := h.group, addr := BitVec.ofNat 48 raddr, epoch := f1.epoch
      src := BitVec.ofNat 28 (f1.node (4 * s) * 1024 + 4 * s), dest := BitVec.ofNat 28 (f1.node (4 * s) * 1024) }
    f1.sendDown s e { x with hdr := Header.carry h1 body.length, body := body }

/-- RDU_CONTRIB (R238): the oldest complete contribution of the input VC that the RDU takes. -/
def execRduContrib (stop input vc : Nat) (s : State) : Host.Outcome State Fault Refusal :=
  s.run fun f => f.when (f.moving && stop < nStops f.variant && input < 8 && vc < 12) <|
    fun f0 =>
      let f := f0.rduPump stop
      let key := 12 * input + vc
      let l := f.stopQ stop key
      match l.findIdx? fun q => q.route == .rdu && q.tailIn with
      | none => f
      | some i => match l[i]? with
        | some q => if q.hdr.kind == 8 then f.rduDown stop key i q else f.rduTake stop input key i q
        | none => f

/-- RDU_HOLD_TIMEOUT (R254): a buffer's hold timer expires before its packets have merged. -/
def execRduHoldTimeout (stop buf : Nat) (s : State) : Host.Outcome State Fault Refusal :=
  s.run fun f => f.when (f.moving && stop < nStops f.variant) <|
    fun f =>
      match NMap.find? (f.stopU stop).rdu.bufs buf with
      | none => f
      | some b =>
        let t := b.openedAt + twHtmo (f.trw stop b.entry 3) * 1024 * f.unit
        if b.merged ≥ twExpect (f.trw stop b.entry 1) || !f.due t then f
        else
          let f1 := (f.reach t).updBufs stop fun m => m.del buf
          (f1.updStop stop fun y => { y with rdu := { y.rdu with expired := y.rdu.expired + 1 } }).raiseStop stop
            .rduTimeout (b.tree.toNat * 2 ^ 32 + b.eoff.toNat)

/-! ## Reports to leaf slots (R219, R240) -/

/-- A local NI reports the copy of a leaf slot done (R219). -/
def Fabric.leafReported (f : Fabric) (p slot : Nat) (st : Status) : Fabric :=
  let s := stopOfPort p
  (f.leafStatus s slot (localOfPort p) st).rduPump s

end Sys2Proof.Machine
end

