-- ==== Sys2Proof/Machine/Targets.lean ====
section
/-! DEFINITION. Units that serve requests: Target NIs, core-local memory, the directory service, the
digest, signals, leaf copies; the load path (08 R186, R187, R201-R206; 12 R278, R290; 13 R299, R314;
04 R446; 07 R173; 09 R219; 01 R444). -/

namespace Sys2Proof.Machine

/-! ## Accepting a request (08 R186, R203; 12 R278) -/

/-- The address lies in the populated part of the target's own stack (R186). -/
def Fabric.inStack (f : Fabric) (p addr n : Nat) : Bool :=
  addr / stackWindow == stackOfPort p && addr % stackWindow + n ≤ stackBytes && paPopulated f.variant addr

/-- The region guard: the domain may not touch the region of an address (R278). -/
def Fabric.regionDenied (f : Fabric) (addr dom : Nat) : Bool :=
  let w := f.fmuTab 1 (addr / 2 ^ 30 % 2048)
  bit w 31 && fld w 5 0 != dom

/-- A unit raises `REGION_DENY`. -/
def Fabric.regionFault (f : Fabric) (p addr dom : Nat) : Fabric :=
  f.raiseNi p .regionDeny (dom * 2 ^ 42 + addr / 128 * 128 % 2 ^ 41)

/-- Line requests of n bytes at an address. -/
def lineCount (addr n : Nat) : Nat := ceilDiv (addr % 128 + n) 128

/-- The lowest free of n identifiers. -/
def freeId (used : List Nat) (n : Nat) : Option Nat := (List.range n).find? fun i => !used.contains i

/-- The bytes of line i of a write of bytes at an address: byte enables and the 128 bytes. -/
def writeLine (addr : Nat) (bs : Bytes) (i : Nat) : BitVec 128 × Bytes :=
  let off := addr % 128
  let at_ (b : Nat) : Option Byte := if 128 * i + b < off then none else bs[128 * i + b - off]?
  (BitVec.ofNat 128 ((List.range 128).map fun b => if (at_ b).isSome then 2 ^ b else 0).sum,
    (List.range 128).map fun b => (at_ b).getD 0)

/-- One line request joins the list. -/
def Fabric.addLine (f : Fabric) (p place i : Nat) (write : Bool) (addr : Nat) (bs : Bytes) : Fabric :=
  match freeId ((f.ni p).tgt.lines.map (·.id)) 256 with
  | none => f
  | some id =>
    let (ben, data) := if write then writeLine addr bs i else (0, [])
    let l : LineReq := { id := id, place := place, idx := i, write := write
                         addr := BitVec.ofNat 34 (addr / 128 + i), ben := ben, data := data, since := f.time.fcc }
    f.updNi p fun n => { n with tgt := { n.tgt with lines := n.tgt.lines ++ [l] } }

/-- Up to n more line requests are made, those of the oldest places first, in line order, while fewer
than 256 are in progress (R203). -/
def Fabric.makeLines (f : Fabric) (p : Nat) : Nat → Fabric
  | 0 => f
  | n + 1 =>
    let t := (f.ni p).tgt
    if t.lines.length ≥ 256 then f
    else match List.find? (fun x : Nat × Place => x.2.made < x.2.lines) t.places with
    | none => f
    | some (k, pl) =>
      ((f.addLine p k pl.made pl.write pl.addr pl.body).updNi p fun n => { n with tgt := { n.tgt with
        places := n.tgt.places.put k { pl with made := pl.made + 1 } } }).makeLines p n

/-- A place is taken and its line requests are made. -/
def Fabric.openPlace (f : Fabric) (p : Nat) (x : Packet) (kind : PlaceKind) (write : Bool) (addr n : Nat) : Fabric :=
  let h := x.hdr
  let pl : Place := { req := h, kind := kind, mark := h.mark, lines := lineCount addr n, flits := Packet.flits x
                      write := write, addr := addr, body := x.body }
  (f.updNi p fun n => { n with tgt := { n.tgt with
    places := n.tgt.places.put n.tgt.nextPlace pl, nextPlace := n.tgt.nextPlace + 1 } }).makeLines p 256

/-- The requests that hold a place (R203). -/
def Target.requests (t : Target) : Nat :=
  (List.filter (fun x : Nat × Place => x.2.kind == .request) t.places).length

/-- Room for a request beside others begun: neither limit of R203 is reached, and a deferred answer is
free where its class needs one (R299). -/
def Fabric.hasRoom (f : Fabric) (p : Nat) (h : Header) (others : Nat) : Bool :=
  let t := (f.ni p).tgt
  t.requests + others < 64 && t.lines.length < 256 &&
    (if h.cls == 5 then t.used < 256 else if h.cls == 1 then t.sused < 64 else true)

/-- Where the body of an `RD_DONE` is written (10 R240). -/
def resultAddr (h : Header) (aux : BitVec 256) : Nat := h.addr.toNat + elemBytes h.fmt.toNat (redOf aux).eoff.toNat

/-- The first address and the bytes that a packet touches. -/
def touched (q : QPkt) : Nat × Nat :=
  if q.hdr.kind == 8 then (resultAddr q.hdr (q.pay.extractLsb' 0 256), q.hdr.bcnt.toNat)
  else (q.hdr.addr.toNat, q.hdr.bcnt.toNat)

/-- A packet that a Target NI holds a place for. -/
def Fabric.isRequest (f : Fabric) (p : Nat) (q : QPkt) : Bool :=
  let k := q.hdr.kind
  k == 0 || k == 1 || (k == 5 && q.hdr.cls == 4) || (k == 8 && f.rootCopy p q)

/-- A packet that TARGET_REQUEST takes: copies and results always (13 R300). -/
def Fabric.takesRequest (f : Fabric) (p : Nat) (q : QPkt) : Bool :=
  f.isRequest p q && (q.hdr.kind == 5 || q.hdr.kind == 8 || f.hasRoom p q.hdr 0)

/-- The packets at the front of an NI's VCs that it has begun to take. -/
def Ni.begun (n : Ni) : List QPkt := n.vq.filterMap fun v => match v.2 with
  | q :: _ => if q.begun then some q else none
  | [] => none

/-- Requests whose answers the NI has not injected yet (R187). -/
def Ni.lmBusy (n : Ni) : Nat :=
  ((n.inj.queues.get 101 []).filter fun o => o.pkt.hdr.kind == 2 || o.pkt.hdr.kind == 3).length

/-- An NI takes the flits of an open packet as they arrive. A Target NI begins a request only while it has
a place for it beside those it has begun (R203), a Core NI one in `REQ` only below 16 in progress (R187).
DEDUCED (log entries 152, 165). -/
def Fabric.niTakesFlits (f : Fabric) (p : Nat) (q : QPkt) : Bool :=
  !q.tailIn && 0 < q.held &&
    (q.begun || (q.hdr.kind != 0 && q.hdr.kind != 1) ||
      (f.kind p == 1 && (q.hdr.cls != 2 || (f.ni p).lmBusy < 16)) || (f.kind p != 1 && f.kind p != 2) ||
      f.kind p == 2 && f.hasRoom p q.hdr ((f.ni p).begun.filter fun x => x.hdr.kind == 0 || x.hdr.kind == 1).length)

/-- The flits that an NI takes of the packet at the front of a VC leave the buffer. -/
def Fabric.niSink (f : Fabric) (p v : Nat) : Fabric :=
  match (f.ni p).vq.get v [] with
  | q :: rest =>
    if f.niTakesFlits p q then (f.setVcQ (.ni p) v (q.sink :: rest)).freePkt (.ni p) v q else f
  | [] => f

/-- A request of class FWD or SCH takes an entry of the Deferred Answer Table; one in FWD uses a token
(R299, R305). -/
def Fabric.takeDat (f : Fabric) (p : Nat) (h : Header) (answer : Option Packet) : Fabric :=
  if h.cls != 5 && h.cls != 1 then f
  else f.updNi p fun n => { n with tgt := { n.tgt with
    dat := n.tgt.dat ++ [{ id := n.tgt.nextDat, fwd := h.cls == 5, req := h, answer := answer }]
    nextDat := n.tgt.nextDat + 1, granted := if h.cls == 5 then n.tgt.granted - 1 else n.tgt.granted } }

/-- A request is accepted. -/
def Fabric.acceptRequest (f : Fabric) (p : Nat) (x : Packet) : Fabric :=
  let h := x.hdr
  (f.takeDat p h none).openPlace p x .request (h.kind == 1) h.addr.toNat h.bcnt.toNat

/-- A request is refused: at once, or in its turn of the Deferred Answer Table (R299). -/
def Fabric.refuseRequest (f : Fabric) (p : Nat) (h : Header) (st : Status) : Fabric :=
  if h.cls != 5 && h.cls != 1 then f.niRefuse p h st
  else (if st = .malformed then f.niErr p 8 else f).takeDat p h (refusal h st (f.node p) p)

/-- A copy or a result that the target writes, or reports `MALFORMED` (R219, R278). -/
def Fabric.acceptCopy (f : Fabric) (p : Nat) (x : Packet) (q : QPkt) : Fabric :=
  let h := x.hdr
  let (a, n) := touched q
  let slot := q.side.toNat
  let root := h.kind == 8
  if badHeader h || !f.inStack p a n then (f.niErr p 8).leafReported p slot .malformed
  else if f.regionDenied a h.domain.toNat then (f.regionFault p a h.domain.toNat).leafReported p slot .malformed
  else f.openPlace p x (if root then .rootResult slot else .mcCopy slot) true a n

/-- TARGET_REQUEST (08 R203): the oldest packet the Target NI has room for. -/
def execTargetRequest (port : Nat) (s : State) : Host.Outcome State Fault Refusal :=
  s.run fun f => f.when (f.moving && f.kind port == 2 && f.powered port) <|
    fun f => f.niTake port (f.takesRequest port) fun f x q =>
      let h := x.hdr
      if h.kind == 5 || h.kind == 8 then f.acceptCopy port x q
      else if badHeader h || !f.inStack port h.addr.toNat h.bcnt.toNat then f.refuseRequest port h .malformed
      else if f.regionDenied h.addr.toNat h.domain.toNat then
        (f.regionFault port h.addr.toNat h.domain.toNat).refuseRequest port h .domainDeny
      else f.acceptRequest port x

/-! ## Line requests and responses (R201, R202) -/

/-- LINE_REQUEST_TAKEN (R201): the memory controller takes the oldest line request presented. -/
def execLineRequestTaken (port : Nat) (s : State) : Host.Outcome State Fault Refusal :=
  s.run fun f => f.when (f.moving && f.kind port == 2 && f.powered port) <|
    fun f => f.updNi port fun n => match n.tgt.lines.findIdx? fun l => !l.taken with
      | none => n
      | some i => { n with tgt := { n.tgt with lines := n.tgt.lines.modify i fun l => { l with taken := true } } }

/-- The bytes that the lines of a place hold, from its address. -/
def Place.bytes (pl : Place) : Bytes :=
  sliceBytes ((List.range pl.lines).flatMap fun i => sliceBytes (pl.got.get i []) 0 128)
    (pl.req.addr.toNat % 128) pl.req.bcnt.toNat

/-- The answer of a place whose lines have all been answered (R203). -/
def Fabric.placeAnswer (f : Fabric) (p : Nat) (pl : Place) : Packet :=
  let h := pl.req
  let st : Status := if h.kind == 0 then (if pl.poison.isSome then .poison else .ok)
    else (if pl.part then .partPoison else .ok)
  let a := answerHdr h (if h.kind == 0 then 2 else 3) st (f.node p) p
  if h.kind == 0 then
    { hdr := { a with bcnt := h.bcnt, len := BitVec.ofNat 6 (dataLen h.addr.toNat h.bcnt.toNat) }, body := pl.bytes }
  else { hdr := { a with bcnt := h.bcnt } }

/-- Counts and faults of an answer that carries poison. -/
def Fabric.countPoison (f : Fabric) (p : Nat) (pl : Place) : Fabric :=
  if pl.req.kind == 0 then match pl.poison with
    | some l => (f.updNi p fun n => { n with tgt := { n.tgt with poisonRd := n.tgt.poisonRd + 1 } }).raiseNi p
        .readPoison (l.toNat * 128)
    | none => f
  else if pl.part then f.updNi p fun n => { n with tgt := { n.tgt with partWr := n.tgt.partWr + 1 } }
  else f

/-- Every line of a place has been answered. Copies and results wait for their report. -/
def Fabric.placeDone (f : Fabric) (p k : Nat) (pl : Place) : Fabric :=
  let free (f : Fabric) : Fabric := f.updNi p fun n => { n with tgt := { n.tgt with places := n.tgt.places.del k } }
  let a := f.placeAnswer p pl
  match pl.kind with
  | .mcCopy _ => f
  | .rootResult _ => f
  | .reread id => ((free f).countPoison p pl).enqueue p 101 { pkt := a, need := id + 1 }
  | .request =>
    if pl.req.cls == 5 || pl.req.cls == 1 then
      let f1 := if pl.req.kind == 0 then f else f.countPoison p pl
      (free f1).updNi p fun n =>
        match n.tgt.dat.findIdx? fun d => d.answer.isNone && d.req == pl.req with
        | some i => { n with tgt := { n.tgt with dat := n.tgt.dat.modify i fun d => { d with answer := some { a with body := [] } } } }
        | none => n
    else ((free f).countPoison p pl).answer p a

/-- A line response is taken into its place. DEDUCED (log entry 39). -/
def Place.took (pl : Place) (l : LineReq) (stat : BitVec 2) (data : Bytes) : Place :=
  { pl with
    answered := pl.answered + 1
    got := if l.write then pl.got else pl.got.put l.idx data
    poison := if !l.write && stat == 1 && (match pl.poison with | some x => l.addr.toNat < x.toNat | none => true)
      then some l.addr else pl.poison
    part := pl.part || (l.write && stat == 2) }

/-- A line response reaches its NI (R202, R203). DEDUCED (log entry 96). -/
def Fabric.lineResponse (f0 : Fabric) (port : Nat) (id : BitVec 8) (stat : BitVec 2) (data : Bytes) : Fabric :=
  let f := f0.updNi port fun n => { n with tgt := { n.tgt with stallEpisode := false } }
  match takeFirst (fun l => l.taken && l.id == id.toNat) (f.ni port).tgt.lines with
  | none => f.raiseNi port .mcProtocol id.toNat
  | some (l, rest) =>
    if stat == 3 then f.raiseNi port .mcProtocol (id.toNat + 2 ^ 8)
    else match (f.ni port).tgt.places.find? l.place with
    | none => f
    | some pl =>
      let pl1 := pl.took l stat data
      let f1 := f.updNi port fun n => { n with tgt := { n.tgt with
        lines := rest, places := n.tgt.places.put l.place pl1 } }
      (if pl1.answered ≥ pl1.lines then f1.placeDone port l.place pl1 else f1).makeLines port 1

/-- A scrubber report reaches its NI (R206). -/
def Fabric.scrubReported (f : Fabric) (port : Nat) (kind : BitVec 2) (line : BitVec 34) : Fabric :=
  if kind == 0 then f.raiseNi port .scrubPoison (line.toNat * 128)
  else f.raiseNi port .mcProtocol (0xFF + 2 * 2 ^ 8)

/-- What a stack sends acts. -/
def Fabric.stackActs (f : Fabric) (p : Nat) : StackIn → Fabric
  | .line id stat data => f.lineResponse p id stat data
  | .scrub kind line => f.scrubReported p kind line

/-- What a stack sends acts at once; an NI frozen by a global stop takes it into its buffers (16 R368).
DEDUCED (log entry 97). -/
def Fabric.stackSends (f : Fabric) (p : Nat) (x : StackIn) : Fabric :=
  if f.moving then f.stackActs p x
  else f.updNi p fun n => { n with tgt := { n.tgt with inbox := n.tgt.inbox ++ [x] } }

/-- What the Target NIs took while they were frozen acts as they resume (16 R370). DEDUCED (log entry 97). -/
def Fabric.openInboxes (f : Fabric) : Fabric :=
  f.nis.foldl (fun g e => e.2.tgt.inbox.foldl (fun h x => h.stackActs e.1 x)
    (g.updNi e.1 fun n => { n with tgt := { n.tgt with inbox := [] } })) f

/-- TGT_LINE_RESPONSE (R202, R203). -/
def execTgtLineResponse (port : Nat) (id : BitVec 8) (stat : BitVec 2) (data : Bytes) (s : State) :
    Host.Outcome State Fault Refusal :=
  s.run fun f => f.when (f.live && f.kind port == 2 && f.powered port) fun f => f.stackSends port (.line id stat data)

/-- SCRUB_REPORT (R206). -/
def execScrubReport (port : Nat) (kind : BitVec 2) (line : BitVec 34) (s : State) : Host.Outcome State Fault Refusal :=
  s.run fun f => f.when (f.live && f.kind port == 2 && f.powered port) fun f => f.stackSends port (.scrub kind line)

/-- DAT_ANSWER (13 R299): the oldest deferred answer is offered; a read reads its lines again. -/
def execDatAnswer (port : Nat) (s : State) : Host.Outcome State Fault Refusal :=
  s.run fun f => f.when (f.moving && f.kind port == 2 && f.powered port) <|
    fun f =>
      let t := (f.ni port).tgt
      let busy := t.places.any fun x => match x.2.kind with | .reread _ => true | _ => false
      match t.dat.find? fun d => d.answer.isSome && !d.rereading with
      | none => f
      | some d =>
        let h := d.req
        let mark (f : Fabric) : Fabric := f.updNi port fun x => { x with tgt := { x.tgt with
          dat := x.tgt.dat.map fun y => if y.id == d.id then { y with rereading := true } else y } }
        if busy then f
        else if h.kind == 0 && (d.answer.map fun a => a.hdr.bcnt) == some h.bcnt then
          (mark f).openPlace port { hdr := h } (.reread d.id) false h.addr.toNat h.bcnt.toNat
        else match d.answer with
          | some a => (mark f).enqueue port 101 { pkt := a, need := d.id + 1 }
          | none => f

/-- TGT_STALL (13 R314): a line request has been unanswered for the limit. -/
def execTgtStall (port : Nat) (s : State) : Host.Outcome State Fault Refusal :=
  s.run fun f => f.when (f.moving && f.kind port == 2 && f.powered port && !(f.ni port).tgt.stallEpisode) <|
    fun f =>
      let late (l : LineReq) : Bool := f.due (l.since + f.localTmo port * f.unit)
      match (f.ni port).tgt.lines.find? late with
      | none => f
      | some l =>
        ((f.reach (l.since + f.localTmo port * f.unit)).updNi port fun n =>
          { n with tgt := { n.tgt with stallEpisode := true } }).raiseNi port .tgtStall (port + l.id * 2 ^ 10)

/-! ## Leaf copies and results (09 R219; 10 R240) -/

/-- The oldest place of a Target NI whose copy is committed and not yet reported. -/
def Target.committed (t : Target) (root : Bool) : Option (Nat × Place × Nat) :=
  t.places.findSome? fun x =>
    if x.2.answered < x.2.lines then none
    else match x.2.kind with
      | .mcCopy n => if root then none else some (x.1, x.2, n)
      | .rootResult n => if root then some (x.1, x.2, n) else none
      | _ => none

/-- A committed copy of a Target NI is reported. -/
def Fabric.reportPlace (f : Fabric) (p : Nat) (root : Bool) : Fabric :=
  match (f.ni p).tgt.committed root with
  | none => f
  | some (k, pl, slot) =>
    ((f.updNi p fun n => { n with tgt := { n.tgt with places := n.tgt.places.del k } }).countPoison p pl).leafReported p slot
      (if pl.part then .partPoison else .ok)

/-- LEAF_REPORT (R219): a copy's bytes are visible or committed. DEDUCED (log entry 40). -/
def execLeafReport (port : Nat) (s : State) : Host.Outcome State Fault Refusal :=
  s.run fun f => f.when (f.moving && f.kind port != 0 && f.powered port) <|
    fun f =>
      if f.kind port == 2 then f.reportPlace port false
      else f.niTake port (fun q => q.hdr.kind == 5 && q.hdr.cls == 4) fun f x q =>
        let slot := q.side.toNat
        if f.kind port != 1 || badHeader x.hdr then (f.niErr port 8).leafReported port slot .malformed
        else (f.lmWrite port x.hdr.addr.toNat x.body).leafReported port slot .ok

/-- Core-local memory is open to a request of n bytes at an address (08 R187). DEDUCED (log entry 40). -/
def Fabric.lmOpen (f : Fabric) (p addr n : Nat) (write : Bool) : Bool :=
  let w := f.niReg p 0x50C
  addr / 2 ^ 32 % 2 ^ 16 == 0 && addr % 2 ^ 32 + n ≤ fld w 19 0 * 4096 && (if write then bit w 30 else bit w 31)

/-- ROOT_RESULT_REPORT (10 R240, R241): the root port's copy of a result is stored and reported.
DEDUCED (log entry 40). -/
def execRootResultReport (port : Nat) (s : State) : Host.Outcome State Fault Refusal :=
  s.run fun f => f.when (f.moving && f.kind port != 0 && f.powered port) <|
    fun f =>
      if f.kind port == 2 then f.reportPlace port true
      else f.niTake port (fun q => q.hdr.kind == 8 && f.rootCopy port q) fun f x q =>
        let slot := q.side.toNat
        let a := resultAddr x.hdr x.aux
        if f.kind port != 1 || badHeader x.hdr || !f.lmOpen port a x.body.length true then
          (f.niErr port 8).leafReported port slot .malformed
        else (f.lmWrite port a x.body).leafReported port slot .ok

/-! ## Core-local memory (08 R187) -/

/-- LOCAL_MEM_REQUEST (R187): a request of class `REQ` is served, unless 16 are in progress; `data` is what
core-local memory gives for a read. One of class `SCH` or `FWD` is discarded. DEDUCED (log entry 165). -/
def execLocalMemRequest (port : Nat) (data : Bytes) (s : State) : Host.Outcome State Fault Refusal :=
  s.run fun f => f.when (f.moving && f.kind port == 1 && f.powered port) <|
    fun f => f.niTake port (fun q => (q.hdr.kind == 0 || q.hdr.kind == 1) && !isNotice q.hdr &&
        (q.hdr.cls != 2 || (f.ni port).lmBusy < 16)) fun f x _ =>
      let h := x.hdr
      let n := h.bcnt.toNat
      let a := fld h.addr 31 0
      if h.cls == 1 || h.cls == 5 then f.raiseNi port .frameErr (infoIcv 0 h.cls.toNat 0)
      else if badHeader h || !f.lmOpen port h.addr.toNat n (h.kind == 1) then f.niRefuse port h .malformed
      else if h.kind == 1 then
        (f.lmWrite port a x.body).answer port
          { hdr := { answerHdr h 3 .ok (f.node port) port with bcnt := h.bcnt } }
      else f.answer port
        { hdr := { answerHdr h 2 .ok (f.node port) port with
            bcnt := h.bcnt, len := BitVec.ofNat 6 (dataLen h.addr.toNat n) }
          body := sliceBytes data 0 n }

/-! ## Directory service (04 R446) -/

/-- The words that a well-formed directory request asks for. -/
def Fabric.dirWords (f : Fabric) (p : Nat) (h : Header) : Option (List Word) :=
  let a := h.addr.toNat
  if h.kind != 0 then none
  else if h.bcnt == 4 && a % 4 == 0 && a / 4 < 32768 then some [f.niEp p h.epoch 5 (a / 4)]
  else if h.bcnt == 64 && 2 ^ 20 ≤ a && (a - 2 ^ 20) % 64 == 0 && (a - 2 ^ 20) / 64 < 4096 then
    some ((List.range 16).map fun i => f.niEp p h.epoch 6 (16 * ((a - 2 ^ 20) / 64) + i))
  else none

/-- DIRECTORY_REQUEST (R446). -/
def execDirectoryRequest (port : Nat) (s : State) : Host.Outcome State Fault Refusal :=
  s.run fun f => f.when (f.moving && f.kind port == 4 && f.powered port) <|
    fun f => f.niTake port (fun q => q.hdr.kind == 0 || q.hdr.kind == 1) fun f x _ =>
      let h := x.hdr
      match if badHeader h then none else f.dirWords port h with
      | none => f.niRefuse port h .malformed
      | some ws => f.answer port
          { hdr := { answerHdr h 2 .ok (f.node port) port with bcnt := h.bcnt, len := 1 }
            body := ws.flatMap fun w => toBytesLE w.toNat 4 }

/-! ## The digest (12 R290) -/

/-- The answer to a read of the digest. -/
def Fabric.digestAnswer (f : Fabric) (h : Header) : Packet :=
  let p := fmuPort
  let ok := h.kind == 0 && fld h.src 9 0 == securityPort && fld h.src 25 10 == f.node p && h.bcnt == 64 &&
    h.addr == (0xFE0000000000 : BitVec 48)
  if !ok then { hdr := answerHdr h 2 .malformed (f.node p) p }
  else
    let d := f.fmu.res.dig
    let ws := [d.head, d.word 1, d.word 2, d.word 3]
    { hdr := { answerHdr h 2 .ok (f.node p) p with bcnt := 64, len := 1 }
      body := (ws.flatMap fun w => toBytesLE w.toNat 4) ++
        ((List.range 12).flatMap fun i => toBytesBE (d.word (4 + i)).toNat 4) }

/-- DIGEST_READ (R290): a read request reaches the FMU; one that waits in its receive buffer leaves it. -/
def execDigestRead (req : Packet) (s : State) : Host.Outcome State Fault Refusal :=
  s.run fun f => f.when (f.moving && req.hdr.kind == 0) <|
    fun f =>
      (f.leaveBuffer fmuPort req.hdr).answer fmuPort (f.digestAnswer req.hdr)

/-! ## Signals (07 R173) -/

/-- SIG_ADD (R173): the oldest SIG at the port is added to its counter, or dropped. -/
def execSigAdd (port : Nat) (s : State) : Host.Outcome State Fault Refusal :=
  s.run fun f => f.when (f.moving && f.kind port != 0 && f.powered port) <|
    fun f => f.niTake port (fun q => q.hdr.kind == 4 && !(f.kind port == 3 && q.hdr.cls == 5)) fun f x _ =>
      let h := x.hdr
      let n := h.addr.toNat
      let drop := (f.niErr port 3).raiseNi port .sigDrop (infoDrop h .malformed)
      if badHeader h then drop
      else if f.kind port == 1 && n < 256 then f.updCtr (.tsq port 0) n fun c => c.addTo (sigAddend x.aux)
      else if port == fmuPort && n < 64 then f.updCtr .fmu n fun c => c.addTo (sigAddend x.aux)
      else drop

/-! ## The load path (01 R24, R27, R444) -/

/-- The parts of an access: address and bytes, cut where it leaves a 4 KiB block. -/
def loadParts (addr n : Nat) : List (Nat × Nat) :=
  let room := 4096 - addr % 4096
  if n ≤ room then [(addr, n)] else [(addr, room), (addr + room, n - room)]

/-- The header of a part. -/
def Fabric.loadHdr (f : Fabric) (p : Nat) (write : Bool) (tag : BitVec 12) (seq a n : Nat) : Header :=
  { cls := 2, kind := if write then 1 else 0, op := 0x3F, domain := BitVec.ofNat 6 (fld (f.niReg p 0x100) 5 0)
    dest := f.destOf p (portOfPa a), src := f.srcOf p, tag := tag, seq := BitVec.ofNat 16 seq
    addr := BitVec.ofNat 48 a, bcnt := BitVec.ofNat 13 n
    len := BitVec.ofNat 6 (if write then dataLen a n else 1) }

/-- The first failing check of a part (R27, R83). -/
def Fabric.loadCheck (f : Fabric) (p : Nat) (h : Header) : Option Status :=
  let a := h.addr.toNat
  if !(paPopulated f.variant a && paPopulated f.variant (a + h.bcnt.toNat - 1)) then some .unreachable
  else match f.resolve p h with
    | .refuse st => some st
    | _ => none

/-- LOAD_PATH_REQUEST (R444): an engine's load or store. Every part is checked before any is
queued. DESIGN CHOICE (log entry 42). -/
def execLoadPathRequest (port engine addr bytes : Nat) (wdata : Option Bytes) (s : State) :
    Host.Outcome State Fault Refusal :=
  s.run fun f => f.when
    (f.moving && f.fmu.prog.open_ && f.kind port == 1 && f.powered port && engine < 4 && 1 ≤ bytes && bytes ≤ 4096) <|
    fun f =>
      let w := wdata.isSome
      let parts := loadParts addr bytes
      let hdr (tag : BitVec 12) (x : (Nat × Nat) × Nat) : Header := f.loadHdr port w tag x.2 x.1.1 x.1.2
      let ps := parts.zip (List.range parts.length)
      match ps.findSome? fun x => f.loadCheck port (hdr 0 x) with
      | some st => (f.niErr port 6).updNi port fun n => { n with core := { n.core with
          engineRsp := n.core.engineRsp ++ [(engine, st, [])] } }
      | none =>
        let (t, f1) := f.takeTag port
        let acc : LoadAcc := { engine := engine, tag := t, addr := addr, bytes := bytes, write := w, need := parts.length }
        let f2 := f1.updNi port fun n => { n with core := { n.core with loads := n.core.loads ++ [acc] } }
        ps.foldl (fun g x => g.enqueue port 16
          { pkt := { hdr := hdr t x, body := if w then sliceBytes (wdata.getD []) (x.1.1 - addr) x.1.2 else [] }
            purpose := some (.load engine x.2) }) f2

end Sys2Proof.Machine
end

