-- ==== Sys2Proof/Machine/Gateways.lean ====
section
/-! DEFINITION. Gateway NIs: egress, the transport, ingress, relays, credits and tokens; stalls of
partners (13 R302-R307, R314; 04 R98-R100; 09 R224; 10 R257-R259). -/

namespace Sys2Proof.Machine

/-! ## Egress (R303, R304, R307) -/

/-- A request leaves the egress buffer: its flits are returned, to its Core NI as `XCREDIT`. The
partials of a child tree have a share of their own (R303). -/
def Fabric.egDone (f : Fabric) (p : Nat) (x : Packet) : Fabric :=
  if x.hdr.kind == 7 then f.updNi p fun n => { n with gw := { n.gw with egUsed := n.gw.egUsed - x.hdr.len.toNat } }
  else f.egReturn p x

/-- An `RD_DONE` that a gateway hands to the root RDU of its child tree (10 R258): `n` flits of it are
charged to the ingress answer buffer. -/
def Fabric.handDone (f : Fabric) (p n : Nat) (x : Packet) : Fabric :=
  f.enqueue p 101 { pkt := { x with hdr := { x.hdr with rport := 0 } }, resolved := true, injDir := some 0, need := n }

/-- The answer of a gateway to a request of its own node that it cannot pass on. -/
def Fabric.egAnswer (f1 : Fabric) (p : Nat) (x : Packet) (st : Status) : Fabric :=
  let h := x.hdr
  if h.kind == 7 then
    let a : Header := { answerHdr h 8 st (f1.node p) p with
      cls := 5, dmode := 2, dest := BitVec.ofNat 28 (f1.node p * 1024), group := h.tag, fmt := h.fmt }
    f1.handDone p 0 { hdr := a, aux := x.aux }
  else if h.kind == 4 then (f1.niErr p 3).raiseNi p .sigDrop (infoDrop h st)
  else f1.niRefuse p h st

/-- A gateway gives up a request of its own node: its flits are returned and it is answered. -/
def Fabric.egRefuse (f : Fabric) (p : Nat) (x : Packet) (st : Status) : Fabric :=
  (f.egDone p x).egAnswer p x st

/-- GW_EGRESS (R307): the gateway takes the oldest `FWD` packet that the fabric ejects to it.
DEDUCED (log entry 143). -/
def execGwEgress (port : Nat) (s : State) : Host.Outcome State Fault Refusal :=
  s.run fun f => f.when (f.moving && f.kind port == 3 && f.powered port) <|
    fun f => f.niTake port (fun q => q.hdr.cls == 5 && q.hdr.kind != 14) fun f x _ =>
      let h := x.hdr
      let n := h.len.toNat
      let stalled := (f.ni port).gw.stallEpisode
      if isFwdReq h then
        let f1 := f.updNi port fun y => { y with gw := { y.gw with egUsed := y.gw.egUsed + n } }
        if badPacket x then f1.egRefuse port x .malformed
        else if (f1.peerInit port (nodeOf h.dest)).isNone then f1.egRefuse port x .unreachable
        else if stalled then f1.egRefuse port x .timeout
        else f1.updNi port fun y => { y with gw := { y.gw with egress := y.gw.egress ++ [(x, f.time.fcc)] } }
      else if badPacket x then f.raiseNi port .rspDrop (infoDrop h .malformed)
      else if stalled then f.raiseNi port .rspDrop (infoDrop h .timeout)
      else f.toTransport port x

/-- A request of the egress buffer that the gateway can act on: no peer, or enough credit there. -/
def Fabric.egReady (f : Fabric) (p : Nat) (x : Packet) : Bool :=
  let node := nodeOf x.hdr.dest
  match f.peerInit p node with
  | none => true
  | some n => (f.ni p).gw.peerCharged.get node 0 + x.hdr.len.toNat ≤ n

/-- The request of the egress buffer that the transport may take, with the others: the oldest that can
go. Requests for one peer keep their order (R304). DEDUCED (log entry 143). -/
def Fabric.egNext (f : Fabric) (p : Nat) (l : List (Packet × Nat)) : Option ((Packet × Nat) × List (Packet × Nat)) :=
  let same (x y : Packet × Nat) : Bool := nodeOf x.1.hdr.dest == nodeOf y.1.hdr.dest
  match (List.range l.length).find? fun i => match l[i]? with
      | some e => f.egReady p e.1 && !(l.take i).any (same e)
      | none => false with
  | some i => (l[i]?).map fun e => (e, l.eraseIdx i)
  | none => none

/-- GW_TRANSPORT_HANDOFF (R304): the transport takes the oldest packet that may go. -/
def execGwTransportHandoff (port : Nat) (s : State) : Host.Outcome State Fault Refusal :=
  s.run fun f => f.when (f.moving && f.kind port == 3 && f.powered port) <|
    fun f =>
      let took (f : Fabric) : Fabric := f.updNi port fun n => { n with gw := { n.gw with stallEpisode := false } }
      match (f.ni port).gw.toTransport with
      | _ :: rest => took (f.updNi port fun n => { n with gw := { n.gw with toTransport := rest } })
      | [] =>
        match f.egNext port (f.ni port).gw.egress with
        | none => f
        | some ((x, _), rest) =>
          let f1 := f.updNi port fun n => { n with gw := { n.gw with egress := rest } }
          let node := nodeOf x.hdr.dest
          if (f.peerInit port node).isNone then f1.egRefuse port x .unreachable
          else took ((f1.updNi port fun n => { n with gw := { n.gw with
            peerCharged := n.gw.peerCharged.upd node 0 (· + x.hdr.len.toNat) } }).egDone port x)

/-- TRANSPORT_FAILURE (04 R98): the transport reports that it could not deliver a request.
DEDUCED (log entry 44). -/
def execTransportFailure (port : Nat) (req : Packet) (s : State) : Host.Outcome State Fault Refusal :=
  s.run fun f => f.when (f.moving && f.kind port == 3 && f.powered port && isFwdReq req.hdr) <|
    fun f =>
      f.egAnswer port req .timeout

/-! ## Ingress (R100, R304, R307; 06 R141) -/

/-- A packet from the transport is refused as red traffic; what it was charged is released. -/
def Fabric.redDiscard (f : Fabric) (p : Nat) (x : Packet) : Fabric :=
  ((f.niErr p 2).updNi p fun n => { n with gw := { n.gw with refused := some .red } }).gwRelease p x

/-- An arriving contribution agrees with the entry of the gateway's stop (10 R257). -/
def Fabric.relayCheck (f : Fabric) (p : Nat) (x : Packet) : Option Status :=
  let s := stopOfPort p
  let h := x.hdr
  let m := redOf x.aux
  match f.treeAt s h.group.toNat, f.grantOf s h.group.toNat with
  | some e, some (_, dom) =>
    let w := f.trw s e 2
    let c := twChunk w
    let vlen := (f.trw s e 7).toNat
    let o := m.eoff.toNat
    let pass := m.rop == 7
    if dom != h.domain.toNat then some .domainDeny
    else if (if pass then twRop w != 0 || isIntFmt (twCfmt w) || m.pw != 0
          else m.rop.toNat != twRop w || m.pw.toNat != twPw w) || m.guard.toNat != twGuard w || h.fmt.toNat != twCfmt w || o % c != 0 || o ≥ vlen ||
        m.ecnt.toNat != min c (vlen - o) then some .malformed
    else none
  | _, _ => some .unreachable

/-- An arriving contribution is refused, or joins the gateway's stop as a member's (10 R257, R259). -/
def Fabric.ingressContrib (f : Fabric) (p : Nat) (x : Packet) (colour : Nat) : Fabric :=
  let h := x.hdr
  let node := nodeOf h.src
  let refuse (st : Status) : Fabric :=
    let a : Header := { answerHdr h 8 st (f.node p) p with
      dmode := 2, dest := BitVec.ofNat 28 (node * 1024), group := h.tag, fmt := h.fmt }
    (f.toTransport p { hdr := a, aux := x.aux }).gwRelease p x
  if !hasRdu f.variant then refuse .unreachable
  else match f.relayCheck p x with
  | some st => (refuse st).raiseNi p .rdRelayFail (h.group.toNat * 2 ^ 16 + node)
  | none =>
    let h1 : Header := { h with
      cls := 4, dest := BitVec.ofNat 28 (f.node p * 1024), src := f.srcOf p, tag := h.group
      colour := BitVec.ofNat 2 colour, rport := 0 }
    f.enqueue p (32 + h.domain.toNat)
      { pkt := { x with hdr := h1 }, purpose := some (.rdRelay node h.tag), resolved := true, injDir := some 0, red := true }

/-- An arriving multicast: relayed at once if its group is cached, else after a lookup (09 R224). -/
def Fabric.ingressMcast (f : Fabric) (p : Nat) (x : Packet) : Fabric :=
  let g := x.hdr.group.toNat
  match cacheHit (f.ni p).ini.gc g f.epoch with
  | some ws =>
    (f.updNi p fun n => { n with ini := { n.ini with
      gc := cacheTouch n.ini.gc g (n.ini.stamp + 1) f.epoch, stamp := n.ini.stamp + 1 } }).relayGo p x ws
  | none =>
    (f.updNi p fun n => { n with
      ini := { n.ini with gmiss := n.ini.gmiss + 1 }
      gw := { n.gw with relays := n.gw.relays ++ [(relayKey g f.epoch, x)] } }).groupLookup p x.hdr.domain x.hdr.op g

/-- A request from a peer's gateway, charged against its grant. DEDUCED (log entry 46). -/
def Fabric.ingressRequest (f : Fabric) (p : Nat) (x : Packet) : Fabric :=
  let h := x.hdr
  let node := nodeOf h.src
  let n := h.len.toNat
  let grant := (f.peerInit p node).getD 0
  let used := (f.ni p).gw.inFrom.get node 0
  let f1 := f.updNi p fun y => { y with gw := { y.gw with
    inFrom := y.gw.inFrom.put node (used + n), inUsed := y.gw.inUsed + n } }
  if used + n > grant then (f1.redDiscard p x).raiseNi p .xcreditOverrun (node + (used + n - grant) * 2 ^ 16)
  else
    let answer (st : Status) : Fabric := (f1.gwAnswer p h st).gwRelease p x
    let dest := portOf h.dest
    if f1.crawl || (f1.ni p).pwr.fence || (f1.ni p).pwr.dfence.getLsbD h.domain.toNat then f1.redDiscard p x
    else if badPacket x then answer .malformed
    else if nodeOf h.dest != f.node p || dest ≥ nPorts f.variant then answer .unreachable
    else
      let col := f1.preview p h
      if col == 2 then f1.redDiscard p x
      else
        let f2 := f1.chargeMeter p h col
        let h1 : Header := { h with rport := BitVec.ofNat 10 dest, colour := BitVec.ofNat 2 col }
        if h.kind == 5 then f2.ingressMcast p { x with hdr := { h with colour := BitVec.ofNat 2 col } }
        else if h.kind == 7 then f2.ingressContrib p x col
        else if (h.kind == 0 || h.kind == 1) && f.kind dest == 1 then (f2.gwAnswer p h .malformed).gwRelease p x
        else f2.enqueue p (32 + h.domain.toNat) { pkt := { x with hdr := h1 } }

/-- An answer from another node: it waits in the ingress answer buffer of 2,048 flits. -/
def Fabric.ingressAnswer (f : Fabric) (p : Nat) (x : Packet) : Fabric :=
  let h := x.hdr
  let n := h.len.toNat
  let dest := portOf h.dest
  if (f.ni p).gw.inAnswers + n > 2048 then f.updNi p fun y => { y with gw := { y.gw with refused := some .full } }
  else if badPacket x || h.cls != 5 then f.raiseNi p .rspDrop (infoDrop h .malformed)
  else if nodeOf h.dest != f.node p || dest ≥ nPorts f.variant || (h.kind == 8 && !hasRdu f.variant) then
    f.raiseNi p .rspDrop (infoDrop h .unreachable)
  else
    let f1 := f.updNi p fun y => { y with gw := { y.gw with inAnswers := y.gw.inAnswers + n } }
    if h.kind == 8 then f1.handDone p n x
    else f1.enqueue p 101 { pkt := { x with hdr := { h with rport := BitVec.ofNat 10 dest } }, need := n }

/-- GW_INGRESS (04 R100): the transport offers a packet. -/
def execGwIngress (port : Nat) (pkt : Packet) (s : State) : Host.Outcome State Fault Refusal :=
  s.run fun f => f.when
    (f.moving && f.kind port == 3 && f.powered port && !(f.ni port).pwr.quiesce) <|
    fun f0 =>
      let f := f0.updNi port fun n => { n with gw := { n.gw with refused := none } }
      let h := pkt.hdr
      if !Header.checks h then f.raiseNi port .hdrCheck (infoIcv 0 0 0)
      else if isFwdReq h then f.ingressRequest port pkt
      else if isAnswerKind h.kind.toNat then f.ingressAnswer port pkt
      else if h.kind == 14 && h.cls == 5 then f
      else f.gwAnswer port h .malformed

/-- GW_RD_DONE_FANOUT (10 R258): the answer to a chunk goes to every child recorded for it. -/
def execGwRdDoneFanout (port : Nat) (s : State) : Host.Outcome State Fault Refusal :=
  s.run fun f => f.when (f.moving && f.kind port == 3 && f.powered port) <|
    fun f => f.niTake port (fun q => q.hdr.kind == 8 && q.hdr.cls == 3) fun f x _ =>
      let h := x.hdr
      if badPacket x then f.raiseNi port .rspDrop (infoDrop h .malformed)
      else
        let es := (f.ni port).ini.ort.filter fun o => o.matches h
        if es.isEmpty then f.unmatched port h
        else if es.any fun o => o.dom != h.domain then f.wrongDomain port h
        else
          let f1 := es.foldl (fun g o =>
            let g1 := g.consumeEntry port o x
            match o.purpose with
            | .rdRelay node tree => g1.toTransport port { x with hdr := { h with
                cls := 5, dest := BitVec.ofNat 28 (node * 1024), src := f.srcOf port, group := tree, tag := tree } }
            | _ => g1) f
          if (redOf x.aux).rop == 7 then f1 else f1.redConsumed port h.tag.toNat h.seq.toNat

/-! ## Credits (R303-R306) -/

/-- The sender's key of an `XCREDIT`: its port, or its node for a peer gateway. -/
def xcSender (h : Header) (kind : Nat) : Nat := if kind == 1 then nodeOf h.src * 1024 else portOf h.src

/-- What a grant does at the unit it reaches. -/
def Fabric.applyGrant (f : Fabric) (p kind : Nat) (h : Header) (grant : Nat) : Fabric :=
  let from_ := portOf h.src
  match f.kind p, kind with
  | 1, 0 => f.updNi p fun n => { n with ini := { n.ini with
      egCredit := n.ini.egCredit.upd from_ 0 (· + (grant : Int)), egCharged := n.ini.egCharged.upd from_ 0 (· - grant) } }
  | 3, 1 => f.updNi p fun n => { n with gw := { n.gw with
      peerCharged := n.gw.peerCharged.upd (nodeOf h.src) 0 (· - grant) } }
  | 3, 2 => f.updNi p fun n => { n with gw := { n.gw with
      tokens := n.gw.tokens.upd from_ 0 (· + grant), tokAsked := n.gw.tokAsked.filter (· != from_)
      tokLast := n.gw.tokLast.put from_ f.time.fcc } }
  | 2, 2 =>
    let f1 := f.updNi p fun n => { n with tgt := { n.tgt with granted := n.tgt.granted - grant } }
    f1.grantTokens p (f1.ni p).tgt.tokReqs.length
  | 2, 3 =>
    let f1 := f.updNi p fun n => { n with tgt := { n.tgt with tokReqs := n.tgt.tokReqs ++ [(from_, grant)] } }
    f1.grantTokens p (f1.ni p).tgt.tokReqs.length
  | _, _ => f

/-- An `XCREDIT` is applied in sequence, or discarded (R306). -/
def Fabric.takeCredit (f : Fabric) (p : Nat) (x : Packet) : Fabric :=
  let h := x.hdr
  let kind := fld h.addr 1 0
  let key := 4 * xcSender h kind + kind
  let want := (f.ni p).gseq.expect.get key 1
  let got := xcGseq x.aux
  if badHeader h || fld h.addr 47 2 != 0 then f
  else if got != want then
    f.raiseNi p .xcreditSeq (got + portOf h.src * 2 ^ 16 + kind * 2 ^ 26)
  else
    (f.updNi p fun n => { n with gseq := { n.gseq with expect := n.gseq.expect.put key (nextGseq want) } }).applyGrant
      p kind h (xcGrant x.aux)

/-- XCREDIT_RECEIVE (R306): from a peer gateway over the transport, or the oldest in the receive
buffer. -/
def execXcreditReceive (port : Nat) (ext : Option Packet) (s : State) : Host.Outcome State Fault Refusal :=
  s.run fun f => f.when (f.moving && f.kind port != 0 && f.powered port) <|
    fun f =>
      match ext with
      | some x => f.when (f.kind port == 3 && x.hdr.kind == 14 && fld x.hdr.addr 1 0 == 1) fun f => f.takeCredit port x
      | none => f.niTake port (fun q => q.hdr.kind == 14) fun f x _ => f.takeCredit port x

/-- TOKEN_IDLE_RETURN (R305 rule 4). -/
def execTokenIdleReturn (port target : Nat) (s : State) : Host.Outcome State Fault Refusal :=
  s.run fun f => f.when (f.moving && f.kind port == 3 && f.powered port) <|
    fun f =>
      let g := (f.ni port).gw
      let n := g.tokens.get target 0
      let t := g.tokLast.get target 0 + max 1 (fld (f.niReg port 0xA00) 15 0) * f.unit
      let wanted := (f.ni port).inj.queues.any fun q => q.2.any fun o =>
        o.purpose.isNone && isFwdReq o.pkt.hdr && o.pkt.hdr.rport.toNat == target
      if n == 0 || wanted || !f.due t then f
      else ((f.reach t).sendX port 2 n target).updNi port fun y => { y with gw := { y.gw with tokens := y.gw.tokens.del target } }

/-! ## Stalls (R314) -/

/-- When the oldest packet the transport could take arrived at the gateway. DEDUCED (log entry 48). -/
def Fabric.oldestEgress (f : Fabric) (p : Nat) : Option Nat :=
  let g := (f.ni p).gw
  let ts := g.toTransport.map (·.2) ++ ((f.egNext p g.egress).map (·.1.2)).toList
  match ts with
  | [] => none
  | t :: r => some (r.foldl min t)

/-- GW_STALL (R314): the transport has left a packet untaken for the limit. Every request held is
answered `TIMEOUT`, held answers are discarded, and all egress credit is returned. DEDUCED (log entry 48). -/
def execGwStall (port : Nat) (s : State) : Host.Outcome State Fault Refusal :=
  s.run fun f => f.when (f.moving && f.kind port == 3 && f.powered port && !(f.ni port).gw.stallEpisode) <|
    fun f =>
      match f.oldestEgress port with
      | none => f
      | some t0 =>
        let t := t0 + f.localTmo port * f.unit
        if !f.due t then f
        else
          let held := (f.ni port).gw.egress
          let lost := (f.ni port).gw.toTransport.filter fun x => isAnswerKind x.1.hdr.kind.toNat
          let f1 := ((f.reach t).updNi port fun n => { n with gw := { n.gw with
            stallEpisode := true, egress := []
            toTransport := n.gw.toTransport.filter fun x => !isAnswerKind x.1.hdr.kind.toNat } }).raiseNi port .gwStall port
          let f2 := lost.foldl (fun g x => g.raiseNi port .rspDrop (infoDrop x.1.hdr .timeout)) f1
          held.foldl (fun g x => g.egRefuse port x.1 .timeout) f2

/-- A flit of a class that an NI of the kind must consume (R300, R301, R307). -/
def mustConsume (kind : Nat) (h : Header) : Bool :=
  match kind with
  | 1 => ((h.cls == 3 || h.cls == 5 || h.cls == 1) && isAnswerKind h.kind.toNat) || h.kind == 4 || h.kind == 14
  | 2 => h.kind == 5 || h.kind == 8
  | 3 => true
  | _ => false

/-- Packets of a stop that wait to leave on an output. -/
def Stop.waitingFor (x : Stop) (o : Nat) : List QPkt :=
  x.vq.flatMap fun v => v.2.filter fun q => match q.route with
    | .go bs => bs.any fun b => b.out == o && !b.wantsSlot && b.dead.isNone && !b.tailSent
    | _ => false

/-- When an output last had nothing waiting or sent a flit, as far as it is known. -/
def Stop.sinkFrom (x : Stop) (o : Nat) (q : QPkt) : Nat := max (x.obs.sinkSince.get o 0) q.at_

/-- SINK_STALL (R314): a local output has held a flit that its NI must consume for the limit. The
packets held for it are consumed as after a withdrawal, with `FENCED`. DEDUCED (log entry 47). -/
def execSinkStall (stop output : Nat) (s : State) : Host.Outcome State Fault Refusal :=
  s.run fun f => f.when
    (f.moving && stop < nStops f.variant && 4 ≤ output && output < 8 && !(f.stopU stop).obs.sinkEpisode.contains output) <|
    fun f =>
      let x := f.stopU stop
      let port := 4 * stop + (output - 4)
      let lim := 16 * max 1 (fld (f.stopReg stop 0x340) 15 0) * f.unit
      match (x.waitingFor output).find? fun q => mustConsume (f.kind port) q.hdr && f.due (x.sinkFrom output q + lim) with
      | none => f
      | some q =>
        let f1 := (f.reach (x.sinkFrom output q + lim)).raiseStop stop .sinkStall (port + q.hdr.cls.toNat * 2 ^ 12)
        let f2 := f1.updStop stop fun y => { y with
          vq := y.vq.mapAll fun _ l => l.map fun p => { p with route := p.route.kill output .fenced }
          obs := { y.obs with sinkEpisode := y.obs.sinkEpisode ++ [output] } }
        (f2.reap stop).rduPump stop

end Sys2Proof.Machine
end

