-- ==== Sys2Proof/Machine/Check.lean ====
section
/-! DEFINITION. The rules of CHECK: the staged set as a turn would put it in force, and what it is
held against (15 R335-R337; 04 R91; 06 R138; 17 R381). -/

namespace Sys2Proof.Machine

/-! ## The staged set in force (R334, R335) -/

/-- A store after the swap: staging copies are in force, and the deferred copies are staged. -/
def CfgStore.turned (c : CfgStore) : CfgStore :=
  { c with regs := NMap.over c.regs c.regsStg, tabs := NMap.over c.tabs c.tabsStg, tabsStg := []
           regsStg := c.regsDfr, regsDfr := [] }

/-- Every unit's staged set in force, under the epoch that was inactive. -/
def Fabric.turnedCfg (f : Fabric) : Fabric :=
  { f with
    nis := f.nis.mapAll fun _ n => { n with cfg := n.cfg.turned }
    stops := f.stops.mapAll fun _ x => { x with cfg := x.cfg.turned }
    fmu := { f.fmu with
      cfg := f.fmu.cfg.turned
      turn := { f.fmu.turn with epoch := f.fmu.turn.epoch + 1, first := false } } }

/-- A bypass or a restore of a stop. -/
def Fabric.setBypass (f : Fabric) (s : Nat) (on : Bool) : Fabric :=
  f.updStop s fun x => { x with spare := { x.spare with bypass := on } }

/-- The record of a substitution joins the spare map (17 R384). -/
def Fabric.recordSpare (f : Fabric) (r : Nat × Nat × Nat × Word) : Fabric :=
  f.updFmu fun m => { m with spares := m.spares ++ [r] }

/-- Gateways and bypasses as the staged actions leave them. -/
def Fabric.asStaged (f : Fabric) : Fabric :=
  f.fmu.drain.actions.foldl (fun g a => match a with
    | .spare 4 s w => g.setBypass s (bit w 0)
    | .spare 5 p w => g.recordSpare (5, p, 0, w)
    | _ => g) f.turnedCfg

/-! ## Violations (R335, R351) -/

/-- A violation: rule, kind of unit, unit and index. -/
structure Viol where
  rule : Nat
  ukind : Nat
  unit : Nat
  index : Nat
  deriving DecidableEq, Repr

/-- Order by code, unit number, index. DESIGN CHOICE (log entry 52). -/
def Viol.before (a b : Viol) : Bool :=
  a.rule < b.rule || (a.rule == b.rule && (a.unit < b.unit || (a.unit == b.unit && a.index < b.index)))

/-- The first violation. DEDUCED (log entry 49). -/
def firstViol : List Viol → Option Viol
  | [] => none
  | v :: vs => match firstViol vs with
    | some w => if w.before v then some w else some v
    | none => some v

/-- A violation of a rule at NI p. -/
def Fabric.violNi (f : Fabric) (rule p index : Nat) : Viol := { rule := rule, ukind := f.kind p, unit := p, index := index }
/-- A violation of a rule at stop s. -/
def violStop (rule s index : Nat) : Viol := { rule := rule, ukind := 9, unit := s, index := index }
/-- A violation of a rule at the FMU. -/
def violFmu (rule index : Nat) : Viol := { rule := rule, ukind := 10, unit := 0, index := index }

/-- NIs that inject: every attached NI in use. -/
def Fabric.injectors (f : Fabric) : List Nat := f.portIds.filter fun p => f.attached p

/-! ## Route rules 1-7 (04 R91)

`g` is the fabric as staged; `f` gives the state of the links. -/

/-- A link that a staged turn may not route over: withdrawn, or to be retrained, unless it meets a
stop that the turn bypasses or restores, whose links are trained anew. DEDUCED (log entry 54). -/
def Fabric.linkGone (f : Fabric) (s o : Nat) : Bool :=
  let n := f.nbr s o
  let acts := f.fmu.drain.actions
  let renewed := acts.any fun a => match a with
    | .spare 4 u _ => u == s || u == n || u == neighbour f.variant s o
    | _ => false
  let retrained := acts.any fun a => match a with
    | .spare 1 u w => (u == s && fld w 3 0 == o) || (u == n && fld w 3 0 == opposite o)
    | _ => false
  !renewed && (retrained || (f.txOf s o).state == .withdrawn || (f.txOf n (opposite o)).state == .withdrawn)

/-- What the tables make of a packet for stop t. -/
structure Walked where
  /-- links of the row leg and of the column leg -/
  row : List (Nat × Nat) := []
  col : List (Nat × Nat) := []
  /-- the stop where it turned, and where it was ejected -/
  turn : Option Nat := none
  last : Option Nat := none
  /-- it turns or ejects at a bypassed stop -/
  byp : Bool := false

/-- A packet for stop t that arrives at stop s travelling along ring direction d. -/
def Fabric.walkRing (g : Fabric) (e : BitVec 1) (t : Nat) : Nat → Nat → Nat → Walked → Walked
  | 0, _, _, w => w
  | n + 1, s, d, w =>
    let b := (g.stopU s).spare.bypass
    let on (d : Nat) (w : Walked) : Walked :=
      let w1 := if d < 2 then { w with row := w.row ++ [(s, d)] } else { w with col := w.col ++ [(s, d)] }
      g.walkRing e t n (neighbour g.variant s d) d w1
    match g.hop s t e with
    | none => if b then on d w else w
    | some .eject => { w with last := some s, byp := w.byp || b }
    | some .pass => on d w
    | some .plusY => if d < 2 then on 2 { w with turn := some s, byp := w.byp || b } else on d w
    | some .minusY => if d < 2 then on 3 { w with turn := some s, byp := w.byp || b } else on d w

/-- The route from stop s to stop t with row direction 0 none, 1 +X, 2 -X. -/
def Fabric.walkRoute (g : Fabric) (e : BitVec 1) (s t dir : Nat) : Walked :=
  let b := (g.stopU s).spare.bypass
  if dir != 0 then
    match g.hop s t e with
    | none => {}
    | some _ => g.walkRing e t 40 (neighbour g.variant s (dir - 1)) (dir - 1) { row := [(s, dir - 1)] }
  else match g.hop s t e with
    | some .eject => { last := some s, byp := b }
    | some .plusY => g.walkRing e t 40 (neighbour g.variant s 2) 2 { col := [(s, 2)] }
    | some .minusY => g.walkRing e t 40 (neighbour g.variant s 3) 3 { col := [(s, 3)] }
    | _ => {}

/-- Links a joined link counts once: those that leave a bypassed stop are not counted. DEDUCED (log entry 53). -/
def Fabric.legLen (g : Fabric) (l : List (Nat × Nat)) : Nat :=
  (l.filter fun x => !(g.stopU x.1).spare.bypass).length

/-- Rules 1-4 for one row direction. -/
def Fabric.routeRule (f g : Fabric) (e : BitVec 1) (s t dir rlen : Nat) : Option Nat :=
  let w := g.walkRoute e s t dir
  if w.last != some t || (match w.turn with | some x => xOf x != xOf t || yOf x != yOf s | none => false) then some 1
  else if g.legLen w.row > 15 || g.legLen w.col > 15 || g.legLen w.row != rlen then some 2
  else if dir != 0 && g.hop s t e != some .pass then some 3
  else if w.byp || (w.row ++ w.col).any fun x => f.linkGone x.1 x.2 then some 4
  else none

/-- The shorter column path from y(s) to t uses a link that may not be used. -/
def Fabric.shortColGone (f : Fabric) (s t d : Nat) : Bool :=
  let n := ringUp (ringD f.variant) (yOf s) (yOf t)
  let k := if d == 2 then n else ringD f.variant - n
  let start := stopAt (xOf t) (yOf s)
  (List.range k).any fun i =>
    f.linkGone (stopAt (xOf start) ((yOf start + (if d == 2 then i else ringD f.variant - i)) % ringD f.variant)) d

/-- Rule 6: the marks of the longer direction. -/
def Fabric.detourRule (f g : Fabric) (e : BitVec 1) (s t dir : Nat) (detour : Bool) : Bool :=
  let w := ringW f.variant
  let up := ringUp w (xOf s) (xOf t)
  let longer := (dir == 1 && 2 * up > w) || (dir == 2 && 2 * up < w)
  let d := ringD f.variant
  let cu := ringUp d (yOf s) (yOf t)
  let colUp := (g.walkRoute e s t (if dir == 3 then 1 else dir)).col.head?.map (·.2)
  let colBad := match colUp with
    | some 2 => 2 * cu > d && !f.shortColGone s t 3
    | some _ => 2 * cu < d && !f.shortColGone s t 2
    | none => false
  detour != longer || colBad

/-- A port that is off once the turn has applied its actions. -/
def Fabric.offStaged (f : Fabric) (p : Nat) : Bool :=
  match f.fmu.drain.actions.find? fun a => (match a with | .power q _ => q == p | _ => false) with
  | some (.power _ on) => !on
  | _ => (f.sport p).pwr != .on

/-- Rule 7 at stop t: the port states of an NI's entry, and `PVALID` of the stop's own entry. -/
def Fabric.pstateRule (f g : Fabric) (p : Nat) (e : BitVec 1) (t : Nat) : Bool :=
  (List.range 4).any fun q =>
    let port := 4 * t + q
    let v := fld (g.niEp p e 0 (3 * t)) (17 + 2 * q) (16 + 2 * q)
    let use := g.attached port
    (if !use then v != 2 else if f.offStaged port then v != 1 else v != 0 && v != 2) || g.pvalid t q e != use

/-- The first rule that entry t of NI p breaks; `ROWDIR` 0b11 forms a route each way. DEDUCED (log entry 49). -/
def Fabric.entryRule (f g : Fabric) (p t : Nat) : Option Nat :=
  let e := g.epoch
  let w0 := g.niEp p e 0 (3 * t)
  let s := stopOfPort p
  let dir := fld w0 30 29
  let rlen := fld w0 3 0
  if !bit w0 31 then none
  else
    let up := ringUp (ringW f.variant) (xOf s) (xOf t)
    let legs : Option Nat :=
      if dir != 3 then f.routeRule g e s t dir rlen
      else match f.routeRule g e s t 1 rlen, f.routeRule g e s t 2 rlen with
        | some a, some b => some (min a b)
        | some a, none => some a
        | none, some b => some b
        | none, none => none
    match legs with
    | some r => some r
    | none =>
      if dir == 3 && 2 * up != ringW f.variant then some 5
      else if f.detourRule g e s t dir (bit w0 28) then some 6
      else if f.pstateRule g p e t then some 7
      else none

def Fabric.checkRoutes (f g : Fabric) : List Viol :=
  g.injectors.flatMap fun p => g.stopIds.filterMap fun t => (f.entryRule g p t).map fun r => g.violNi r p t

/-! ## Rules 0x08-0x0D -/

/-- The link of an output, joined links included, contains a wrap link (05 R121). -/
def Fabric.joinedWrap (g : Fabric) : Nat → Nat → Nat → Bool
  | 0, s, o => isWrap g.variant s o
  | n + 1, s, o =>
    let t := neighbour g.variant s o
    isWrap g.variant s o || ((g.stopU t).spare.bypass && g.joinedWrap n t o)

def Fabric.checkDline (g : Fabric) : List Viol :=
  g.stopIds.filterMap fun s =>
    if !(g.stopU s).spare.bypass && (List.range 4).any (fun o => g.dline s o != g.joinedWrap 15 s o)
    then some (violStop 0x08 s 0x208) else none

/-- The directory ports of dies other than D0. -/
def Fabric.otherDirs (g : Fabric) : List Nat := (g.dieIds.filter (· != 0)).map dirPort

/-- Keys of a table that some die's copy lists. -/
def Fabric.dirKeys (g : Fabric) (table : Nat) : List Nat :=
  (g.dieIds.flatMap fun d => (tableWords ((g.ni (dirPort d)).cfg.ep g.epoch) table).map (·.1)).eraseDups

/-- One violation for each identifier whose copies differ (04 R94). DEDUCED (log entry 50). -/
def Fabric.checkDirs (g : Fabric) : List Viol :=
  (g.dirKeys 5).filterMap fun i =>
    (g.otherDirs.find? fun p => g.niEp p g.epoch 5 i != g.niEp (dirPort 0) g.epoch 5 i).map
      fun p => g.violNi 0x09 p i

/-- One violation for each NI whose `NODE` differs from that of the lowest port (04 R99). -/
def Fabric.checkNodes (g : Fabric) : List Viol :=
  let ps := g.niPorts
  let ref_ := g.node (ps.headD 0)
  (ps.filter fun p => g.node p != ref_).map fun p => g.violNi 0x0A p 0x200

/-- Gateway Select entries name Gateway NIs in use (04 R98). -/
def Fabric.checkSelect (g : Fabric) : List Viol :=
  g.injectors.flatMap fun p => (List.range 16).filterMap fun i =>
    let w := g.niEp p g.epoch 1 i
    if bit w 31 && g.kind (fld w 9 0) != 3 then some (g.violNi 0x0B p i) else none

/-- The domains an NI's channels and load path hold, with their register offsets. -/
def Fabric.domainsOf (g : Fabric) (p : Nat) : List (Nat × Nat) :=
  ((List.range 16).map fun c => (0x400 + 16 * c, fld (g.niReg p (0x400 + 16 * c)) 5 0)) ++
    [(0x100, fld (g.niReg p 0x100) 5 0)]

/-- Core NIs that can issue an `MCAST` to a group of a domain. -/
def Fabric.usersOf (g : Fabric) (dom : Nat) : List Nat :=
  g.portIds.filter fun p => g.kind p == 1 && ((g.domainsOf p).take 16).any (·.2 == dom)

/-- A valid group breaks R210. -/
def Fabric.groupBad (g : Fabric) (ws : List Word) : Bool :=
  let dom := grpDomain ws
  let stops := bitsSet 256 (grpMask ws)
  let leaves := stops.flatMap fun s => (bitsSet 4 (grpPmask ws)).map fun p => 4 * s + p
  let remote := grpRemote ws
  stops.any (fun s => s ≥ nStops g.variant) ||
  leaves.any (fun p => (g.kind p != 1 && g.kind p != 2) || !g.accepts p dom) ||
  (grpNleaf ws == 0 && remote.isEmpty) ||
  remote.any fun r => r.1 == g.node (dirPort 0) ||
    (g.usersOf dom).any fun p => !bit (g.niEp p g.epoch 1 (r.1 % 16)) 31

def Fabric.checkGroups (g : Fabric) : List Viol :=
  let groups := ((g.dirKeys 6).map (· / 16)).eraseDups
  groups.filterMap fun i =>
    let ws (p : Nat) : List Word := (List.range 16).map fun w => g.niEp p g.epoch 6 (16 * i + w)
    let ref_ := ws (dirPort 0)
    match g.otherDirs.find? fun p => ws p != ref_ with
    | some p => some (g.violNi 0x0C p i)
    | none => if grpValid ref_ && g.groupBad ref_ then some (g.violNi 0x0C (dirPort 0) i) else none

/-- Accept Map rules (12 R277). -/
def Fabric.checkAccept (g : Fabric) : List Viol :=
  let strict := bit (g.fmuReg 0x440) 0
  g.portIds.flatMap fun p =>
    let k := g.kind p
    if k == 1 then
      let ds := g.domainsOf p
      ((ds.find? fun x => !g.accepts p x.2).map fun x => g.violNi 0x0D p x.1).toList ++
      (if strict then ((ds.find? fun x => x.2 != (ds.headD (0, 0)).2).map fun x => g.violNi 0x0D p x.1).toList else [])
    else if k == 4 || k == 5 || k == 6 then
      if (List.range 64).all fun d => g.accepts p d then [] else [g.violNi 0x0D p (0x300 + 8 * localOfPort p)]
    else []

/-! ## Lane Schedules (06 R136, R138) -/

/-- A flow at its injection slot: NI, slot, binding. -/
def Fabric.injSlots (g : Fabric) (p : Nat) : List (Nat × Nat) :=
  (List.range 512).filterMap fun s =>
    let w := g.niTab p 3 s
    if bit w 31 then some (s, fld w 29 28) else none

def Fabric.bindWord (g : Fabric) (p b : Nat) : Word := g.niReg p (0x340 + 4 * b)

/-- The outputs of stop s whose slot is owned by the input VC. -/
def Fabric.ownedBy (g : Fabric) (s slot input vc : Nat) : List Nat :=
  (List.range 8).filter fun o =>
    let w := g.stopTab s 1 (512 * o + slot)
    bit w 31 && fld w 30 28 == input && fld w 27 27 == vc

/-- The slots a flit takes from one element to the next over output o of stop s. -/
def Fabric.linkSlots (g : Fabric) (s o : Nat) : Nat :=
  if g.bridge s o then 23 else if g.nbr s o != neighbour g.variant s o then 2 else 1

/-- The entries of a flit that follow R136 from stop s on, and the port where they end. -/
def Fabric.chain (g : Fabric) : Nat → Nat → Nat → Nat → Nat → List (Nat × Nat) → Option (List (Nat × Nat) × Nat)
  | 0, _, _, _, _, _ => none
  | n + 1, s, input, vc, arrive, acc =>
    -- ring outputs: the slot is `arrive` at the source stop and two later elsewhere; local outputs: one later
    let ring : Nat := if input ≥ 4 then arrive % 512 else (arrive + 2) % 512
    let loc : Nat := (arrive + 1) % 512
    let outs := ((List.range 4).filter fun o => (g.ownedBy s ring input vc).contains o) ++
      ((List.range 4).map (· + 4)).filter fun o => (g.ownedBy s loc input vc).contains o
    match outs with
    | [o] =>
      if o ≥ 4 then some (acc ++ [(s, 512 * o + loc)], 4 * s + (o - 4))
      else
        let vc2 := (g.outVc s input o (BitVec.ofNat 1 vc)).toNat
        g.chain n (g.nbr s o) (opposite o) vc2 (ring + g.linkSlots s o) (acc ++ [(s, 512 * o + ring)])
    | _ => none

/-- The outputs of the staged route of NI p to a port. -/
def Fabric.routeOuts (g : Fabric) (p port : Nat) : List (Nat × Nat) :=
  let t := stopOfPort port
  let dir := fld (g.niEp p g.epoch 0 (3 * t)) 30 29
  let w := g.walkRoute g.epoch (stopOfPort p) t (if dir == 3 then 1 else dir)
  ((w.row ++ w.col).filter fun x => !(g.stopU x.1).spare.bypass) ++ [(t, 4 + localOfPort port)]

/-- Lengths of the runs of consecutive marked slots, counted cyclically. -/
def cyclicRuns (on : Nat → Bool) : List Nat :=
  let starts := (List.range 512).filter fun s => on s && !on ((s + 511) % 512)
  if starts.isEmpty then (if on 0 then [512] else [])
  else starts.map fun s => (((List.range 512).find? fun k => !on ((s + k) % 512)).getD 512)

/-- A valid injection slot with its chain. DEDUCED (log entry 55). -/
def Fabric.flowSlots (g : Fabric) (p : Nat) : List (Nat × Nat × Option (List (Nat × Nat) × Nat)) :=
  (g.injSlots p).map fun x => (x.1, x.2, g.chain 40 (stopOfPort p) (4 + localOfPort p) 0 x.1 [])

/-- The staged entry of NI p for the stop of a port passes R91. DEDUCED (log entry 55). -/
def Fabric.routePasses (f g : Fabric) (p port : Nat) : Bool :=
  bit (g.niEp p g.epoch 0 (3 * stopOfPort port)) 31 && (f.entryRule g p (stopOfPort port)).isNone

/-- Rules 2 and 3 at a Core NI. -/
def Fabric.checkFlows (f g : Fabric) (p : Nat) : List Viol :=
  let fs := g.flowSlots p
  let slotBad (x : Nat × Nat × Option (List (Nat × Nat) × Nat)) : Bool :=
    let b := g.bindWord p x.2.1
    match x.2.2 with
    | none => true
    | some (es, port) =>
      !bit b 31 || g.kind port != 2 || !f.routePasses g p port ||
      es.map (fun e => (e.1, e.2 / 512)) != g.routeOuts p port ||
      fs.any fun y => y.2.1 == x.2.1 && (match y.2.2 with | some (_, q) => q != port | none => false)
  let binds := (List.range 4).filter fun b => bit (g.bindWord p b) 31
  let chan (b : Nat) : Nat := fld (g.bindWord p b) 19 16
  let bindBad (b : Nat) : Bool :=
    let plen := fld (g.bindWord p b) 5 0
    plen == 0 || plen > 33 ||
    (cyclicRuns fun s => fs.any fun x => x.1 == s && x.2.1 == b).any (fun r => r % max 1 plen != 0) ||
    binds.any fun c => c < b && chan c == chan b
  (fs.filter slotBad).map (fun x => g.violNi 0x0E p x.1) ++
  (binds.filter bindBad).map (fun b => g.violNi 0x0E p (0x340 + 4 * b))

/-- Every entry a stop's schedule owns belongs to a flow (rule 2), its `VC` with it (rule 7), and no
output is over-reserved (rule 4). -/
def Fabric.checkLanes (g : Fabric) (s : Nat) (used : List (Nat × Nat)) : List Viol :=
  let owned := (tableWords (g.stopU s).cfg.tabs 1).filter fun x => x.2 / 2 ^ 31 % 2 == 1
  (owned.filter fun x => !used.contains (s, x.1)).map (fun x => violStop 0x0E s x.1) ++
  (List.range 8).filterMap fun o =>
    let on (k : Nat) : Bool := owned.any fun x => x.1 == 512 * o + k
    if (owned.filter fun x => x.1 / 512 == o).length > 384 || (cyclicRuns on).any (· > 66)
    then some (violStop 0x0E s (512 * o)) else none

/-- Rules 5 and 6: the rates that a Core NI and a Gateway NI commit. -/
def Fabric.checkRates (g : Fabric) : List Viol :=
  let cir (p : Nat) : Nat := ((List.range 64).map fun d => fld (g.niTab p 2 (4 * d + 1)) 31 16).sum
  let owned (p : Nat) : Nat := if hasRdu g.variant then ((g.injSlots p).filter fun x => bit (g.bindWord p x.2) 31).length else 0
  (g.portIds.filter fun p => (g.kind p == 1 && 8 * owned p + cir p > 4096) || (g.kind p == 3 && cir p > 3200)).map
    fun p => g.violNi 0x0E p 0

def Fabric.checkSchedules (f g : Fabric) : List Viol :=
  if !hasRdu g.variant then g.checkRates else
  let cores := g.portIds.filter fun p => g.kind p == 1
  let used := cores.flatMap fun p => (g.flowSlots p).flatMap fun x => match x.2.2 with
    | some (es, _) => es
    | none => []
  (cores.flatMap fun p => f.checkFlows g p) ++ (g.stopIds.flatMap fun s => g.checkLanes s used) ++ g.checkRates

/-- The flows, as NI, binding and destination port. -/
def Fabric.flows (g : Fabric) : List (Nat × Nat × Nat) :=
  if !hasRdu g.variant then [] else
  ((g.portIds.filter fun p => g.kind p == 1).flatMap fun p =>
    ((g.flowSlots p).filterMap fun x => x.2.2.map fun c => (p, x.2.1, c.2))).eraseDups

/-- At most 16 flows end at one Target NI (13 R298). -/
def Fabric.checkEnds (g : Fabric) : List Viol :=
  let fl := g.flows
  (g.portIds.filter fun p => g.kind p == 2 && (fl.filter fun x => x.2.2 == p).length > 16).map
    fun p => g.violNi 0x0F p 0

/-! ## Rules 0x10-0x16 -/

/-- Meter entries (06 R141, R143). -/
def Fabric.checkMeters (g : Fabric) : List Viol :=
  (g.portIds.filter fun p => g.kind p == 1 || g.kind p == 3).flatMap fun p =>
    (List.range 64).filterMap fun d =>
      let w1 := g.niTab p 2 (4 * d + 1)
      let w2 := g.niTab p 2 (4 * d + 2)
      if fld w1 15 0 < fld w1 31 16 ||
          (bit (g.niTab p 2 (4 * d)) 31 && (fld w2 31 16 < 5 || fld w2 15 0 < 5))
      then some (g.violNi 0x10 p d) else none

/-- `EG_INIT` in effect (13 R316). -/
def Fabric.egInit (g : Fabric) (p : Nat) : Nat := max 0x21 (fld (g.niReg p 0x900) 15 0)

/-- An NI's Gateway Select Table names a port. -/
def Fabric.selects (g : Fabric) (p gw : Nat) : Bool :=
  (List.range 16).any fun i => let w := g.niEp p g.epoch 1 i; bit w 31 && fld w 9 0 == gw

/-- Egress credit (13 R303), peer grants (R304) and Service NI ports (R305) of each gateway. -/
def Fabric.checkGateways (g : Fabric) : List Viol :=
  (g.portIds.filter fun p => g.kind p == 3).flatMap fun p =>
    let eg := ((g.portIds.filter fun q => g.kind q == 1 && g.selects q p).map g.egInit).sum + (g.ni p).gw.egReserved
    let peer := ((List.range 16).map fun i => let w := g.niTab p 4 i; if bit w 31 then fld w 30 16 else 0).sum
    let svc := g.stopIds.filter fun t => bit (g.niEp p g.epoch 0 (3 * t)) 31 && (List.range 4).any fun q =>
      4 ≤ g.kind (4 * t + q) && g.kind (4 * t + q) ≤ 7 &&
        fld (g.niEp p g.epoch 0 (3 * t)) (17 + 2 * q) (16 + 2 * q) != 2
    (if eg > 16384 then [g.violNi 0x11 p 0] else []) ++
    (if peer > 16384 then [g.violNi 0x12 p 0] else []) ++ svc.map fun t => g.violNi 0x13 p t

/-- Core NI ports of one core. -/
def Fabric.sameCore (g : Fabric) (p q : Nat) : Bool :=
  g.kind q == 1 && q != p && dieOfPort q == dieOfPort p && coreInDie q == coreInDie p

/-- A port that is powered off has a live dependant (12 R285). -/
def Fabric.hasDependant (f g : Fabric) (p : Nat) : Bool :=
  let s := stopOfPort p
  let k := g.kind p
  let e := g.epoch
  (tableWords ((g.ni (dirPort 0)).cfg.ep e) 5).any (fun w => w.2 / 2 ^ 31 % 2 == 1 && w.2 % 1024 == p) ||
  (((g.dirKeys 6).map (· / 16)).eraseDups.any fun i =>
    let ws := (List.range 16).map fun w => g.niEp (dirPort 0) e 6 (16 * i + w)
    grpValid ws && (grpMask ws).testBit s && (grpPmask ws).testBit (localOfPort p)) ||
  ((f.die 0).recs.any fun t => t.2.ports.contains p || tdRoot t.2.desc == p) ||
  (g.injectors.any fun q => g.selects q p) ||
  (k == 1 && ((List.range 4).any (fun b => bit (g.bindWord p b) 31) || !(g.injSlots p).isEmpty)) ||
  ((tableWords (g.stopU s).cfg.tabs 1).any fun w => w.2 / 2 ^ 31 % 2 == 1 &&
    (w.1 / 512 == 4 + localOfPort p || w.2 / 2 ^ 28 % 8 == 4 + localOfPort p)) ||
  (k == 1 && (g.domainsOf p).any fun d => !(g.portIds.any fun q =>
    g.sameCore p q && !f.offStaged q && (g.domainsOf q).any (·.2 == d.2))) ||
  (4 ≤ k && k ≤ 7)

/-- Power changes (12 R285): no live dependant, and `PSTATE` agrees. DEDUCED (log entry 51). -/
def Fabric.checkPower (f g : Fabric) : List Viol :=
  f.fmu.drain.actions.filterMap fun a => match a with
    | .power p false =>
      let t := stopOfPort p
      let agrees := g.injectors.all fun q =>
        let w := g.niEp q g.epoch 0 (3 * t)
        !bit w 31 || fld w (17 + 2 * localOfPort p) (16 + 2 * localOfPort p) == 1
      if f.hasDependant g p || !agrees then some (g.violNi 0x14 p t) else none
    | _ => none

/-- The unit a staged action names: its kind as in R157, and its number. -/
def Fabric.actionUnit (f : Fabric) (a : Action) : Nat × Nat :=
  match a with
  | .spare 5 p _ => (f.kind p, p)
  | .spare 6 d _ => (5, slicePort d)
  | .spare _ s _ => (9, s)
  | .power p _ => (f.kind p, p)

/-- A substitution that R381 rejects. -/
def Fabric.spareBad (f : Fabric) (kind u : Nat) (w : Word) : Bool :=
  let st := f.stopU u
  match kind with
  | 0 =>
    let i := fld w 3 0
    let br := f.bridge u (opposite i)
    let used := (st.wear.get i {}).spares
    u ≥ nStops f.variant || i > 3 || fld w 14 4 ≥ wireCount br || fld w 17 15 > 5 ||
      (sparesTaken br used (fld w 14 4)).contains (fld w 17 15)
  | 1 => u ≥ nStops f.variant || fld w 3 0 > 3
  | 2 => u ≥ nStops f.variant || fld w 3 0 > 7 || fld w 7 4 > 11 || (st.spare.bankVc.find? (fld w 3 0)).isSome
  | 3 => u ≥ nStops f.variant || st.spare.slice.isSome
  | 4 => u ≥ nStops f.variant ||
    (bit w 0 && (List.range 4).any fun q => 4 ≤ f.kind (4 * u + q) && f.kind (4 * u + q) ≤ 7)
  | 5 => baseKind f.variant u != 8 || (f.gwSub u).isSome
  | 6 => u ≥ nDies f.variant
  | _ => true

/-- The spare map (17 R381). DEDUCED (log entry 51). -/
def Fabric.checkSpares (f g : Fabric) : List Viol :=
  (f.fmu.drain.actions.filterMap fun a => match a with
    | .spare k u w => if f.spareBad k u w then
        let n := f.actionUnit a
        some { rule := 0x15, ukind := n.1, unit := n.2, index := 0 } else none
    | _ => none) ++
  g.niPorts.flatMap fun p => (List.range 64).filterMap fun r =>
    let w (i : Nat) : Word := g.niEp p g.epoch 0 (768 + i)
    if bit (w r) 31 && (fld (w r) 7 0 ≥ nStops g.variant ||
        (List.range r).any fun i => bit (w i) 31 && fld (w i) 7 0 == fld (w r) 7 0)
    then some (g.violNi 0x15 p (768 + r)) else none

/-- Staged actions that name a unit an earlier one names. -/
def Fabric.checkUnits (f : Fabric) : List Viol :=
  let l := f.fmu.drain.actions.map f.actionUnit
  (List.range l.length).filterMap fun i => match l[i]? with
    | some u => if (l.take i).contains u then some { rule := 0x16, ukind := u.1, unit := u.2, index := 0 } else none
    | none => none

/-- Every violation of the staged set (R336). DEDUCED (log entry 49). -/
def Fabric.violations (f : Fabric) : List Viol :=
  let g := f.asStaged
  f.checkRoutes g ++ g.checkDline ++ g.checkDirs ++ g.checkNodes ++ g.checkSelect ++ g.checkGroups ++
  g.checkAccept ++ f.checkSchedules g ++ g.checkEnds ++ g.checkMeters ++ g.checkGateways ++
  f.checkPower g ++ f.checkSpares g ++ f.checkUnits

/-! ## CHECK (R335, R337, R351) -/

/-- The words of a report. -/
def checkWords (vs : List Viol) : List Word :=
  match firstViol vs with
  | none => [mkWord [(23, 1)], 0]
  | some v => [mkWord [(8, v.rule), (0, min 255 vs.length)], mkWord [(28, v.ukind), (16, v.unit), (0, v.index)]]

/-- A report is published, and the op completes with the code of its first violation. -/
def Fabric.checkReport (f : Fabric) (e : QEntry) (vs : List Viol) : Fabric :=
  let f1 := f.updRes fun r => { r with chk := r.chk.publish (checkWords vs) }
  match firstViol vs with
  | none => (f1.updTurn fun t => { t with checked := true }).finish .fmu e.eid .ok 0
  | some v => f1.finish .fmu e.eid .malformed (infoMal e.op 0x04 v.rule)

/-- An op that starts only after every earlier op of the stream has completed. -/
def Fabric.startAlone (f : Fabric) (oc : Nat) (k : Fabric → QEntry → Fabric) : Fabric :=
  f.when f.fmu.chan.queue.isEmpty fun f => f.startMgmt oc k

end Sys2Proof.Machine
end

