-- ==== Sys2Proof/Machine/Repairs.lean ====
section
/-! DEFINITION. The Repair List in the staged set: detours, shedding; CHECK and the FMU's own repair
turns (16 R359; 06 R145-R147; 15 R335). -/

namespace Sys2Proof.Machine

/-- The epoch that staging writes. -/
def Fabric.stgEpoch (f : Fabric) : BitVec 1 := f.epoch + 1

/-- A store with a word of an epoch table written. -/
def CfgStore.putEp (c : CfgStore) (e : BitVec 1) (table idx : Nat) (v : Word) : CfgStore :=
  if e = 0 then { c with ep0 := c.ep0.put (tkey table idx) v } else { c with ep1 := c.ep1.put (tkey table idx) v }

def Fabric.setNiEp (f : Fabric) (p : Nat) (e : BitVec 1) (table idx : Nat) (v : Word) : Fabric :=
  f.updNi p fun n => { n with cfg := n.cfg.putEp e table idx v }
def Fabric.setStopEp (f : Fabric) (s : Nat) (e : BitVec 1) (table idx : Nat) (v : Word) : Fabric :=
  f.updStop s fun x => { x with cfg := x.cfg.putEp e table idx v }

/-- A staging copy of a table word of an NI, a stop, the FMU; of a register of an NI. -/
def Fabric.stgNiTab (f : Fabric) (p table idx : Nat) (v : Word) : Fabric :=
  f.updNi p fun n => { n with cfg := { n.cfg with tabsStg := n.cfg.tabsStg.put (tkey table idx) v } }
def Fabric.stgStopTab (f : Fabric) (s table idx : Nat) (v : Word) : Fabric :=
  f.updStop s fun x => { x with cfg := { x.cfg with tabsStg := x.cfg.tabsStg.put (tkey table idx) v } }
def Fabric.stgFmuTab (f : Fabric) (table idx : Nat) (v : Word) : Fabric :=
  f.updFmu fun m => { m with cfg := { m.cfg with tabsStg := m.cfg.tabsStg.put (tkey table idx) v } }
def Fabric.stgNiReg (f : Fabric) (p off : Nat) (v : Word) : Fabric :=
  f.updNi p fun n => { n with cfg := { n.cfg with regsStg := n.cfg.regsStg.put off v } }

/-! ## Detours (04 R91; 16 R359) -/

/-- The links of a column path from stop c to stop t in direction d. -/
def colPath (v : Variant) (c t d : Nat) : List (Nat × Nat) :=
  let n := ringUp (ringD v) (yOf c) (yOf t)
  let k := if d == 2 then n else (ringD v - n) % ringD v
  (List.range k).map fun i =>
    (stopAt (xOf c) ((yOf c + (if d == 2 then i else ringD v - i)) % ringD v), d)

/-- Hop Table entries whose column path uses a link of `hit` take the other direction, where it is
free and no longer than 15 links. -/
def Fabric.detourCols (f : Fabric) (hit : List (Nat × Nat)) : Fabric :=
  let e := f.stgEpoch
  let todo := f.stopIds.flatMap fun t => (List.range (ringD f.variant)).filterMap fun y =>
    let c := stopAt (xOf t) y
    let w := f.stopEp c e 0 t
    let turned (d : Nat) : Option (Nat × Nat × Word) :=
      let other := colPath f.variant c t (opposite d)
      if (colPath f.variant c t d).any hit.contains && other.length ≤ 15 &&
          !other.any fun x => f.linkGone x.1 x.2
      then some (c, t, w ^^^ 0x60000000) else none
    match hopActOf w with
    | some .plusY => turned 2
    | some .minusY => turned 3
    | _ => none
  f.forEach todo fun g x => g.setStopEp x.1 e 0 x.2.1 x.2.2

/-- Word 0 of an entry with another row direction. -/
def entryWith (w : Word) (dir : Nat) (longer : Bool) (rlen : Nat) : Word :=
  (w &&& 0x8FFFFFF0) ||| mkWord [(29, dir), (28, b2n longer), (0, rlen)]

/-- The entry of NI p for stop t once the links of `hit` are avoided; none where it stays. -/
def Fabric.detourEntry (f g : Fabric) (hit : List (Nat × Nat)) (p t : Nat) : Option Word :=
  let e := g.epoch
  let w := g.niEp p e 0 (3 * t)
  let s := stopOfPort p
  let dir := fld w 30 29
  let uses (d : Nat) : Bool :=
    let r := g.walkRoute e s t d
    (r.row ++ r.col).any hit.contains
  let up := ringUp (ringW f.variant) (xOf s) (xOf t)
  let try_ (d : Nat) : Option Word :=
    let len := g.legLen (g.walkRoute e s t d).row
    if (f.routeRule g e s t d len).isNone then
      some (entryWith w d ((d == 1 && 2 * up > ringW f.variant) || (d == 2 && 2 * up < ringW f.variant)) len)
    else none
  let first (ds : List Nat) : Word := (ds.findSome? try_).getD (w &&& 0x7FFFFFFF)
  if !bit w 31 then none
  else if dir == 3 then if uses 1 || uses 2 then some (first [1, 2]) else none
  else if uses dir then some (if dir == 0 then first [0] else first [dir, 3 - dir])
  else none

/-- Every staged route over a link of `hit` detours, or its entry is given up. -/
def Fabric.detour (f : Fabric) (hit : List (Nat × Nat)) : Fabric :=
  if hit.isEmpty then f
  else
    -- the tables before the columns turn say which entries are concerned
    let f1 := f.detourCols hit
    let g := f1.asStaged
    let g0 := f.asStaged
    let todo := g.injectors.flatMap fun p => g.stopIds.filterMap fun t =>
      match f1.detourEntry g hit p t with
      | some w => some (p, t, w)
      | none =>
        -- a route whose column turned still has to pass
        if g0.walkRoute g.epoch (stopOfPort p) t (fld (g.niEp p g.epoch 0 (3 * t)) 30 29) |>.col.any hit.contains then
          (if bit (g.niEp p g.epoch 0 (3 * t)) 31 && f1.entryRule g p t == some 4
            then some (p, t, g.niEp p g.epoch 0 (3 * t) &&& 0x7FFFFFFF) else none)
        else none
    f1.forEach todo fun h x => h.setNiEp x.1 f.stgEpoch 0 (3 * x.2.1) x.2.2

/-! ## Shedding (06 R145-R147, R149) -/

/-- Word 0 of a reservation entry after the turn: an entry first applied takes the turn's number.
DEDUCED (log entry 71). -/
def admTurn (old0 old1 new0 new1 : Word) (tseq : BitVec 16) : Word :=
  let keep := new0 &&& 0xFFFF0000
  if !bit new0 31 then keep
  else if old0 &&& 0xFFFF0000 == keep && old1 == new1 then keep ||| (old0 &&& 0x0000FFFF)
  else keep ||| tseq.setWidth 32

/-- A reservation of the staged table: its entry, kind, domain, turn of admission, flow id or port. -/
structure Resv where
  idx : Nat
  rate : Bool
  dom : Nat
  adm : Nat
  flow : Nat
  deriving DecidableEq, Repr

/-- The reservations of a staged set `g`, with the turn of admission that the turn would leave. -/
def Fabric.reservations (f g : Fabric) : List Resv :=
  (List.range 1024).filterMap fun i =>
    let w1 := g.fmuTab 0 (2 * i + 1)
    let w0 := admTurn (f.fmuTab 0 (2 * i)) (f.fmuTab 0 (2 * i + 1)) (g.fmuTab 0 (2 * i)) w1 (f.fmu.turn.tseq + 1)
    if bit w0 31 then some { idx := i, rate := bit w0 30, dom := fld w0 29 24, adm := fld w0 15 0
                             flow := if bit w0 30 then fld w1 9 0 else fld w1 31 16 }
    else none

/-- Shed sooner: rates before flows, then the later turn, the higher domain, the higher flow id. -/
def Resv.sooner (a b : Resv) : Bool :=
  if a.rate != b.rate then a.rate
  else if a.adm != b.adm then a.adm > b.adm
  else if a.dom != b.dom then a.dom > b.dom
  else a.flow > b.flow

def pickResv : List Resv → Option Resv
  | [] => none
  | r :: rs => match pickResv rs with
    | some x => if x.sooner r then some x else some r
    | none => some r

/-- A shed reservation leaves the table and is reported (R146, R147). -/
def Fabric.resvShed (f : Fabric) (r : Resv) : Fabric :=
  ((f.stgFmuTab 0 (2 * r.idx) 0).stgFmuTab 0 (2 * r.idx + 1) 0).raiseFmu .guaranteeShed
    (r.dom * 2 ^ 42 + b2n r.rate * 2 ^ 41 + r.flow)

/-- The lane entries of a flow and its bindings are cleared. -/
def Fabric.clearFlow (f g : Fabric) (flow : Nat) : Fabric :=
  let cores := g.portIds.filter fun p => g.kind p == 1
  let mine (w : Word) : Bool := bit w 31 && fld w 15 0 == flow
  let f1 := f.forEach cores fun h p =>
    let slots := (List.range 512).filter fun s => mine (g.niTab p 3 s)
    let binds := (slots.map fun s => fld (g.niTab p 3 s) 29 28).eraseDups
    (h.forEach slots fun x s => x.stgNiTab p 3 s 0).forEach binds fun x b => x.stgNiReg p (0x340 + 4 * b) 0
  f1.forEach g.stopIds fun h s =>
    h.forEach ((tableWords (g.stopU s).cfg.tabs 1).filter fun w => mine (BitVec.ofNat 32 w.2)) fun x w => x.stgStopTab s 1 w.1 0

/-- A reservation gives way (R145). -/
def Fabric.shed (f g : Fabric) (r : Resv) : Fabric :=
  (if r.rate then (f.stgNiTab r.flow 2 (4 * r.dom + 1) (g.niTab r.flow 2 (4 * r.dom + 1) &&& 0xFFFF)).updFmu fun m =>
      { m with shed := if m.shed.contains (r.flow, r.dom) then m.shed else m.shed ++ [(r.flow, r.dom)] }
   else f.clearFlow g r.flow).resvShed r

/-- Shedding goes on until the set passes R138. -/
def Fabric.shedUntil (f : Fabric) : Nat → Fabric
  | 0 => f
  | n + 1 =>
    let g := f.asStaged
    if (f.checkSchedules g).isEmpty then f
    else match pickResv (f.reservations g) with
      | some r => (f.shed g r).shedUntil n
      | none => f

/-- Flows whose route uses a withdrawn link or a bypassed stop: the route that the staged set gives them,
or the one in force for a slot that the set keeps. -/
def Fabric.brokenFlows (f g : Fabric) : List Nat :=
  if !hasRdu g.variant then [] else
  let hit (h : Fabric) (kept : Bool) (p : Nat) : List Nat := (h.flowSlots p).filterMap fun x => match x.2.2 with
    | some (es, _) =>
      if (!kept || f.niTab p 3 x.1 == g.niTab p 3 x.1) && es.any fun e =>
          (g.stopU e.1).spare.bypass || (e.2 / 512 < 4 && f.linkGone e.1 (e.2 / 512))
      then some (fld (g.niTab p 3 x.1) 15 0) else none
    | none => none
  ((g.portIds.filter fun p => g.kind p == 1).flatMap fun p => hit f true p ++ hit g false p).eraseDups

/-- The reservations of the broken flows give way first, then the others as R146 orders. -/
def Fabric.shedAll (f : Fabric) : Fabric :=
  let g := f.asStaged
  let broken := f.brokenFlows g
  let f1 := f.forEach ((f.reservations g).filter fun r => !r.rate && broken.contains r.flow) fun h r => h.shed g r
  f1.shedUntil 1024

/-! ## Staging the Repair List (16 R359; 17 R381) -/

/-- The action of a repair. -/
def Repair.action (r : Repair) : Action :=
  if r.rkind == 0xE then .power r.unit.toNat false else .spare r.rkind.toNat r.unit.toNat r.spec

/-- A port staged off reads off in every staged Source Route Table. DEDUCED (log entry 56). -/
def Fabric.stagePstateOff (f : Fabric) (p : Nat) : Fabric :=
  let e := f.stgEpoch
  let t := stopOfPort p
  let sh := 16 + 2 * localOfPort p
  f.forEach (f.injectors.filter fun q => bit (f.niEp q e 0 (3 * t)) 31) fun g q =>
    g.setNiEp q e 0 (3 * t) ((g.niEp q e 0 (3 * t) &&& ~~~BitVec.ofNat 32 (3 * 2 ^ sh)) ||| BitVec.ofNat 32 (2 ^ sh))

/-- A repair whose unit has no staged action joins the staged set. -/
def Fabric.stageRepair (f : Fabric) (r : Repair) : Fabric :=
  let a := r.action
  if r.staged || (f.fmu.drain.actions.map f.actionUnit).contains (f.actionUnit a) then f
  else
    let f1 := f.updFmu fun m => { m with
      drain := { m.drain with actions := m.drain.actions ++ [a] }
      turn := { m.turn with checked := false }
      fault := { m.fault with repairs := m.fault.repairs.map fun x => if Repair.same r x then { x with staged := true } else x } }
    match a with
    | .power p _ => f1.stagePstateOff p
    | _ => f1

/-- Every repair of the list is staged, with its detours and what they shed. DEDUCED (log entry 58). -/
def Fabric.stageRepairs (f : Fabric) : Fabric :=
  if !f.fmu.turn.writable then f
  else
    let f1 := f.fmu.fault.repairs.foldl Fabric.stageRepair f
    let fresh := f1.fmu.fault.repairs.filter fun r => r.staged && !(f.fmu.fault.repairs.any fun x => Repair.same r x && x.staged)
    let turned := f1.fmu.fault.repairs.filter fun r => r.staged && r.detour && !r.detoured
    let f2 := f1.updFmu fun m => { m with fault := { m.fault with
      repairs := m.fault.repairs.map fun x => if x.staged && x.detour then { x with detoured := true } else x } }
    let hit := turned.flatMap fun r =>
      let s := r.unit.toNat
      let o := fld r.spec 3 0
      [(s, o), (f.nbr s o, opposite o)]
    if fresh.isEmpty && turned.isEmpty then f1 else (f2.detour hit).shedAll

/-! ## CHECK and AUTO_REPAIR -/

/-- CHECK (15 R335; 16 R359): the Repair List is staged first, then the whole set is tested. -/
def execCheck (s : State) : Host.Outcome State Fault Refusal :=
  s.run fun f => f.startAlone ocCheck fun f e =>
    let g := f.stageRepairs
    g.checkReport e g.violations

/-- An op of the FMU's own: no counter advances for it. DEDUCED (log entry 57). -/
def ownOp (oc : Nat) (operands : Nat) : Op := BitVec.ofNat 128 (oc * 2 ^ 122 + operands)

/-- AUTO_REPAIR (16 R359): CHECK, a TURN for M = MSC + 2, and DRAIN of the retired epoch. `DTMO` of
that DRAIN is not stated: a free value. DESIGN CHOICE (log entry 43). -/
def execAutoRepair (s : State) : Host.Outcome State Fault Refusal :=
  s.run fun f => f.when
    (f.moving && f.fmu.prog.open_ && f.fmu.fault.auto && !f.fmu.fault.repairs.isEmpty && f.fmu.prog.fifo.isEmpty
      && f.fmu.chan.queue.isEmpty && !f.fmu.turn.sealed_ && f.fmu.turn.writable) <|
    fun f =>
      let dtmo := (Config.freeValue 16 f.freeCtr).toNat
      f.draw.updFmu fun m => { m with prog := { m.prog with fifo :=
        [ownOp ocCheck 0, ownOp ocTurn (f.msc + 2), ownOp ocDrain (f.epoch.toNat * 2 ^ 95 + dtmo * 2 ^ 64)] } }

end Sys2Proof.Machine
end

