-- ==== Sys2Proof/Machine/Turns.lean ====
section
/-! DEFINITION. TURN: start checks, arming, disarming and the outcome; port power; DRAIN (15
R338-R342, R344-R347; 12 R286, R287; 18 R399). -/

namespace Sys2Proof.Machine

/-! ## Units and their order -/

/-- The number of a unit. -/
def UnitId.num : UnitId → Nat
  | .fmu => 0
  | .slice d => d
  | .stop s => s
  | .ni p => p

/-- The die of a unit. -/
def UnitId.die : UnitId → Nat
  | .fmu => 0
  | .slice d => d
  | .stop s => dieOfStop s
  | .ni p => dieOfPort p

/-- Unit order: by number, then by kind. -/
def Fabric.unitBefore (f : Fabric) (a b : UnitId) : Bool :=
  (UnitId.num a) < (UnitId.num b) || ((UnitId.num a) == (UnitId.num b) && f.unitKind a < f.unitKind b)

/-- The first unit of a list in unit order. DEDUCED (log entry 63). -/
def Fabric.firstUnit (f : Fabric) : List UnitId → Option UnitId
  | [] => none
  | u :: us => match f.firstUnit us with
    | some v => if f.unitBefore v u then some v else some u
    | none => some u

/-- The units that a turn arms: every stop, and every NI but those that are off (R339). -/
def Fabric.armUnits (f : Fabric) : List UnitId :=
  f.stopIds.map .stop ++ (f.niPorts.filter fun p => (f.sport p).pwr != .off).map .ni

/-- The information that names a unit and its kind (R342, R350). -/
def Fabric.unitInfo (f : Fabric) (u : UnitId) : Nat := (UnitId.num u) + f.unitKind u * 2 ^ 10

/-! ## Residue counts (R344) -/

/-- A place that holds a copy or a result until it is committed (13 R300). -/
def PlaceKind.isCopy : PlaceKind → Bool
  | .mcCopy _ => true
  | .rootResult _ => true
  | _ => false

/-- Packets of an epoch whose tail a sender still holds for acknowledgement. -/
def LinkTx.residue (t : LinkTx) (e : BitVec 1) : Nat :=
  (t.retry.filter fun x => x.ep == e &&
    ((Ctl.ofBits x.c).ftype == ftTail || (Ctl.ofBits x.c).ftype == ftSingle)).length

def vqResidue (v : NMap (List QPkt)) (e : BitVec 1) : Nat :=
  (v.map fun q => (q.2.filter fun x => x.hdr.epoch == e).length).sum

/-- Packets whose head waits in a landing buffer. -/
def LinkRx.residue (r : LinkRx) (e : BitVec 1) : Nat :=
  (r.landing.filter fun x => ((Ctl.ofBits x.c).ftype == ftHead || (Ctl.ofBits x.c).ftype == ftSingle) &&
    (Header.ofBits (x.d.extractLsb' 768 256)).epoch == e).length

/-- DEDUCED (log entry 68). -/
def Stop.residue (x : Stop) (e : BitVec 1) : Nat :=
  if x.spare.bypass then 0
  else vqResidue x.vq e + ((x.tx.map fun t => LinkTx.residue t.2 e).sum) +
    ((x.rx.map fun r => LinkRx.residue r.2 e).sum) +
    (x.rdu.bufs.filter fun b => b.2.hdr.epoch == e).length

def Ni.residue (n : Ni) (e : BitVec 1) : Nat :=
  let open_ := match n.inj.sending with
    | [] => 0
    | x :: _ => b2n (n.tx.eps.get x.2.1 0 == e)
  let copies := List.filter (fun x : Nat × Place => x.2.req.epoch == e && x.2.kind.isCopy) n.tgt.places
  vqResidue n.vq e + n.tx.residue e + open_ + copies.length

def Fabric.residueOf (f : Fabric) (e : BitVec 1) : UnitId → Nat
  | .stop s => (f.stopU s).residue e
  | .ni p => (f.ni p).residue e
  | _ => 0

/-- Every unit with a residue count. -/
def Fabric.units (f : Fabric) : List UnitId := f.stopIds.map .stop ++ f.niPorts.map .ni

/-- The sum of a die's counts. -/
def Fabric.dieResidue (f : Fabric) (e : BitVec 1) (d : Nat) : Nat :=
  ((f.units.filter fun u => (UnitId.die u) == d).map (f.residueOf e)).sum

/-- The unit with the largest count, the first in unit order among equals. -/
def Fabric.largest (f : Fabric) (e : BitVec 1) : Option UnitId :=
  f.units.foldl (fun a u => match a with
    | none => if f.residueOf e u > 0 then some u else none
    | some v =>
      if f.residueOf e u > f.residueOf e v || (f.residueOf e u == f.residueOf e v && f.unitBefore u v) then some u
      else a) none

/-! ## Quiet units (18 R399; 12 R286) -/

/-- Nothing of either epoch, no request open, no op incomplete. DEDUCED (log entry 112). -/
def Fabric.quietUnit (f : Fabric) (u : UnitId) : Bool :=
  f.residueOf 0 u == 0 && f.residueOf 1 u == 0 &&
  (match u with
   | .ni p => (f.ni p).ini.ort.isEmpty && (f.ni p).tsq.chans.all fun c => c.2.queue.all fun e => !e.started
   | _ => true)

/-- An NI with no accepted packet unanswered and no request open. -/
def Ni.quiet (n : Ni) : Bool :=
  n.ini.ort.isEmpty && n.vq.all (fun q => q.2.isEmpty) && (n.inj.queues.get 101 []).isEmpty && n.inj.sending.isEmpty &&
  n.tx.retry.isEmpty && n.tgt.places.isEmpty && n.tgt.dat.isEmpty && n.gw.egress.isEmpty && n.gw.relays.isEmpty

/-! ## Port power (12 R286, R287) -/

/-- The link between a stop and its port starts afresh, on both sides. -/
def Fabric.portLinkReset (f : Fabric) (p : Nat) : Fabric :=
  f.updStop (stopOfPort p) fun x => { x with
    tx := x.tx.del (4 + localOfPort p), rx := x.rx.del (4 + localOfPort p) }

/-- An NI without power keeps only its tables and ST registers. DEDUCED (log entry 67). -/
def Fabric.niLost (f : Fabric) (p : Nat) : Fabric := f.updNi p fun n => { cfg := n.cfg }

/-- The stop isolates a port, and the FMU gates it: copies still held for the port are refused.
DEDUCED (log entry 67). -/
def Fabric.gatePort (f : Fabric) (p : Nat) : Fabric :=
  let s := stopOfPort p
  let f1 := f.updSport p fun x => { x with pwr := .off }
  let f2 := f1.updStop s fun x => { x with vq := x.vq.mapAll fun k q =>
    (if k / 12 == 4 + localOfPort p then [] else q).map fun y =>
      { y with route := y.route.kill (4 + localOfPort p) .targetOff } }
  (((f2.portLinkReset p).niLost p).reap s).digestEvent 2

/-- A port is ungated: its NI starts from reset values, with the fences that its stop and the FMU
hold for it. DEDUCED (log entry 66). -/
def Fabric.ungatePort (f : Fabric) (p : Nat) : Fabric :=
  let f1 := ((f.updSport p fun x => { x with pwr := .waking }).portLinkReset p).niLost p
  f1.updNi p fun n => { n with
    tsq := { n.tsq with accFrom := f.time.cycles }
    inj := { n.inj with lfsr := tieSeed (f.niReg p 0x204) }
    pwr := { n.pwr with fence := (f.sport p).fence, dfence := f.fmu.dfence, waking := some f.time.fcc } }

/-- A sealed turn powers an isolating port on again: it is not gated. DESIGN CHOICE (log entry 166). -/
def Fabric.comesBack (f : Fabric) (p : Nat) : Bool :=
  f.fmu.turn.sealed_ && !f.fmu.turn.swapped && f.fmu.drain.actions.contains (.power p true)

/-- PORT_GATE (R286): the old epoch has drained and the NI is quiet. -/
def execPortGate (port : Nat) (s : State) : Host.Outcome State Fault Refusal :=
  s.run fun f => f.when
    (f.moving && f.kind port != 0 && (f.sport port).pwr == .isolating && (f.ni port).quiet &&
      (f.ni port).pwr.drained && !f.comesBack port) <|
    fun f => f.gatePort port

/-! ## TURN starts (R338, R339; 18 R399) -/

/-- The reason a TURN is refused. -/
def Fabric.turnReason (f : Fabric) (m : Nat) : Option Nat :=
  let t := f.fmu.turn
  if !f.time.aligned then some 0x06
  else if t.sealed_ then some 0x02
  else if !t.writable then some 0x03
  else if !t.checked then some 0x01
  else if m ≤ f.msc + 1 then some 0x04
  else if m > f.msc + 65536 then some 0x05
  else none

/-- The staged set changes `SPEED`. -/
def Fabric.speedStaged (f : Fabric) : Bool :=
  (f.fmu.cfg.regsStg.get 0x80C (f.fmuReg 0x80C) ^^^ f.fmuReg 0x80C) != 0

/-- Ports that are off and that the staged set powers on. -/
def Fabric.wakePorts (f : Fabric) : List Nat :=
  f.fmu.drain.actions.filterMap fun a => match a with
    | .power p true => if (f.sport p).pwr == .off then some p else none
    | _ => none

/-- Quiesce or release: Core NIs start no op, Gateway NIs take nothing. -/
def Fabric.setQuiesce (f : Fabric) (on : Bool) : Fabric :=
  f.forEach (f.portIds.filter fun p => f.kind p == 1 || f.kind p == 3) fun g p =>
    g.updNi p fun n => { n with pwr := { n.pwr with quiesce := on } }

/-- The set is sealed and arming begins. -/
def Fabric.seal (f : Fabric) (e : QEntry) (m : Nat) : Fabric :=
  let wake := f.wakePorts
  let q := f.speedStaged
  let f1 := (f.updEntry .fmu e.eid fun x => { x with issued := true }).updTurn fun t => { t with
    sealed_ := true, m := BitVec.ofNat 40 m, disarming := false, confirmed := [], refused := [], disarmed := []
    cancelled := false, notReady := none, deadlinePassed := false, swapped := false, fail := none
    ungated := wake, quiescing := q }
  let f2 := f1.updRes fun r => { r with turn := r.turn.start }
  let f3 := f2.forEach f2.dieIds fun g d => g.updDie d fun x => { x with arm := .arming, swapped := false }
  let f4 := f3.forEach wake fun g p => g.ungatePort p
  if q then f4.setQuiesce true else f4

/-- TURN (R338). DEDUCED (log entry 60). -/
def execTurn (s : State) : Host.Outcome State Fault Refusal :=
  s.run fun f => f.startAlone ocTurn fun f e =>
    let m := fld e.op 39 0
    match f.turnReason m with
    | some r => f.refuseOp e r
    | none => f.seal e m

/-! ## Arming (R339) -/

/-- Instants of a turn: the arming deadline, the last for disarm confirmations, and the swap. -/
def Turn.armBy (t : Turn) : Nat := (t.m.toNat - 1) * msLen + 524288
def Turn.disarmBy (t : Turn) : Nat := (t.m.toNat - 1) * msLen + 786432
def Turn.swapAt (t : Turn) : Nat := t.m.toNat * msLen

/-- Arming is still going on. -/
def Turn.arming (t : Turn) : Bool := t.sealed_ && !t.disarming && !t.swapped && !t.deadlinePassed

/-- Units that have neither confirmed nor refused. -/
def Fabric.unarmed (f : Fabric) : List UnitId :=
  f.armUnits.filter fun u => !f.fmu.turn.confirmed.contains u && !f.fmu.turn.refused.contains u

/-- Every die reported armed. -/
def Fabric.allArmed (f : Fabric) : Bool :=
  f.armUnits.all fun u => f.fmu.turn.confirmed.contains u && !f.fmu.turn.refused.contains u

/-- A unit confirms or refuses; its slice reports. -/
def Fabric.unitArmed (f : Fabric) (u : UnitId) (good : Bool) : Fabric :=
  let f1 := f.updTurn fun t =>
    if good then { t with confirmed := t.confirmed ++ [u] } else { t with refused := t.refused ++ [u] }
  let mine := f1.armUnits.filter fun v => (UnitId.die v) == (UnitId.die u)
  let t := f1.fmu.turn
  let a : ArmState := if mine.any t.refused.contains then .refused
    else if mine.all t.confirmed.contains then .armed else .arming
  f1.updDie (UnitId.die u) fun x => { x with arm := a }

/-- The ring inputs of a stop that end a Die Bridge. -/
def Fabric.bridgeInputs (f : Fabric) (s : Nat) : List Nat :=
  (List.range 4).filter fun i => f.bridge s (opposite i)

/-- The X that a stop's bridge endpoints measure: each 11-23 fc (06 R137). DEDUCED (log entry 65). -/
def Fabric.measureX (f : Fabric) (s : Nat) (xs : List Nat) : Fabric :=
  ((f.bridgeInputs s).zip xs).foldl (fun g e => g.updRx (.st s (opposite e.1)) fun r => { r with xMeas := e.2 }) f

/-- An endpoint that cannot measure refuses. DEDUCED (log entry 65). -/
def Fabric.measured (f : Fabric) (u : UnitId) (xs : List Nat) : Bool :=
  match u with
  | .stop s => xs.length == (f.bridgeInputs s).length && xs.all fun x => 11 ≤ x && x ≤ 23
  | _ => true

/-- UNIT_ARM (R339; 18 R399). A port that is waking confirms when it is ready (PORT_WAKE); it may refuse.
DEDUCED (log entry 64). -/
def execUnitArm (unit : UnitId) (good : Bool) (x : List Nat) (s : State) : Host.Outcome State Fault Refusal :=
  s.run fun f =>
    let t := f.fmu.turn
    let waking := match unit with | .ni p => (f.sport p).pwr == .waking | _ => false
    f.when (f.moving && t.arming && f.unarmed.contains unit && !(waking && good) && f.time.fcc ≤ t.armBy &&
        (!t.quiescing || f.quietUnit unit)) fun f =>
      if !t.quiescing then f.unitArmed unit good
      else
        let ok := good && f.measured unit x
        (match unit with | .stop s => if ok then f.measureX s x else f | _ => f).unitArmed unit ok

/-- A port powered on does not become ready (12 R287). -/
def Fabric.wakeFails (f : Fabric) (p : Nat) : Fabric :=
  (f.updTurn fun t => { t with notReady := some (match t.notReady with | some q => min q p | none => p) }).raiseFmu
    .pwrWakeFail p

/-- PORT_WAKE (12 R287): the NI is ready, or is not. DEDUCED (log entry 64). -/
def execPortWake (port : Nat) (good : Bool) (s : State) : Host.Outcome State Fault Refusal :=
  s.run fun f => f.when (f.moving && f.fmu.turn.arming && f.time.fcc ≤ f.fmu.turn.armBy && (f.sport port).pwr == .waking
      && f.kind port != 0 && (f.ni port).pwr.waking.isSome) fun f =>
    let f1 := f.updNi port fun n => { n with pwr := { n.pwr with waking := none } }
    if good then f1.unitArmed (.ni port) true else f1.wakeFails port

/-! ## Disarming (R340, R341) -/

/-- Every unit is told to disarm; ports ungated for the turn are gated again (12 R287). -/
def Fabric.disarm (f : Fabric) (st : Status) (info : BitVec 48) : Fabric :=
  let f1 := f.updTurn fun t => { t with disarming := true, fail := some (st, info), ungated := [] }
  let f2 := f1.forEach f.fmu.turn.ungated fun g p => g.gatePort p
  f2.setQuiesce false

/-- Why an unarmed turn fails: a port not ready, a refusal, a missing confirmation (R342).
DEDUCED (log entry 63). -/
def Fabric.armFailure (f : Fabric) : Status × BitVec 48 :=
  match f.fmu.turn.notReady, f.firstUnit f.fmu.turn.refused, f.firstUnit f.unarmed with
  | some p, _, _ => (.targetOff, BitVec.ofNat 48 p)
  | none, some u, _ => (.malformed, BitVec.ofNat 48 (ocTurn + 0x04 * 256 + 0x0C * 65536 + (UnitId.num u) * 2 ^ 24))
  | none, none, some u => (.timeout, BitVec.ofNat 48 (f.unitInfo u))
  | none, none, none => (.timeout, 0)

/-- At the deadline the turn goes on, or is disarmed; a port still waking has not become ready. -/
def Fabric.deadline (f : Fabric) : Fabric :=
  let late := f.fmu.turn.ungated.filter fun p => (f.sport p).pwr == .waking && (f.ni p).pwr.waking.isSome
  let f1 := (f.forEach late fun g p => g.wakeFails p).updTurn fun t => { t with deadlinePassed := true }
  if f1.allArmed then f1 else f1.disarm f.armFailure.1 f.armFailure.2

/-- ARMING_DEADLINE (R340). -/
def execArmingDeadline (s : State) : Host.Outcome State Fault Refusal :=
  s.run fun f => f.when (f.moving && f.fmu.turn.arming && f.due f.fmu.turn.armBy) fun f =>
    (f.reach f.fmu.turn.armBy).deadline

/-- UNIT_DISARM (R340). -/
def execUnitDisarm (unit : UnitId) (s : State) : Host.Outcome State Fault Refusal :=
  s.run fun f => f.when (f.live && f.fmu.turn.sealed_ && f.fmu.turn.disarming && f.armUnits.contains unit &&
      f.time.fcc ≤ f.fmu.turn.disarmBy && !f.fmu.turn.disarmed.contains unit) fun f =>
    let f1 := f.updTurn fun t => { t with disarmed := t.disarmed ++ [unit] }
    if (f1.armUnits.filter fun v => (UnitId.die v) == (UnitId.die unit)).all f1.fmu.turn.disarmed.contains then
      f1.updDie (UnitId.die unit) fun x => { x with arm := .disarmed }
    else f1

/-- Units whose disarm is not confirmed. -/
def Fabric.undisarmed (f : Fabric) : List UnitId := f.armUnits.filter fun u => !f.fmu.turn.disarmed.contains u

/-- A disarm is confirmed missing at its deadline: `TURN_DISARM_LOST`, which the FMU evaluates at once
(16 R353). DEDUCED (log entry 167). -/
def Fabric.disarmLost (f : Fabric) : Fabric :=
  match f.firstUnit f.undisarmed with
  | none => f
  | some u => (f.updTurn fun t => { t with lost := true }).evaluate
      (mkFault 0 0 FaultKind.turnDisarmLost.code FaultKind.turnDisarmLost.cls false (f.unitInfo u) f.time.fcc)

/-- A disarm is awaited: its deadline is still to come. -/
def Fabric.disarmAwaited (f : Fabric) : Bool :=
  f.fmu.turn.sealed_ && f.fmu.turn.disarming && !f.fmu.turn.lost && !f.fmu.stop.stopped && !f.undisarmed.isEmpty

/-- DISARM_DEADLINE (R340): a confirmation is missing. -/
def execDisarmDeadline (s : State) : Host.Outcome State Fault Refusal :=
  s.run fun f => f.when (f.live && f.disarmAwaited && f.due f.fmu.turn.disarmBy) fun f =>
    (f.reach f.fmu.turn.disarmBy).disarmLost

/-- A write of `CANCEL` = 1 (R341). -/
def Fabric.turnCancel (f : Fabric) : Fabric :=
  if f.fmu.turn.arming && f.time.fcc < f.fmu.turn.armBy then
    (f.updTurn fun t => { t with cancelled := true }).disarm .aborted 0
  else f

/-- TURN_CANCEL (R341). -/
def execTurnCancel (s : State) : Host.Outcome State Fault Refusal :=
  s.run fun f => f.onBus true Fabric.turnCancel

/-! ## The outcome (R342, R334) -/

/-- A store after a failed turn: its deferred writes join the staged set. -/
def CfgStore.unsealed (c : CfgStore) : CfgStore :=
  { c with regsStg := NMap.over c.regsStg c.regsDfr, regsDfr := [] }

/-- Some register write was deferred. -/
def Fabric.deferredAny (f : Fabric) : Bool :=
  f.nis.any (fun n => !n.2.cfg.regsDfr.isEmpty) || f.stops.any (fun x => !x.2.cfg.regsDfr.isEmpty) ||
    !f.fmu.cfg.regsDfr.isEmpty

/-- The staged set is writable again: deferred writes join it, and then it is no longer checked (R334, R337).
DEDUCED (log entry 140). -/
def Fabric.unseal (f : Fabric) : Fabric :=
  let c := f.fmu.turn.checked && !f.deferredAny
  { f with
    nis := f.nis.mapAll fun _ n => { n with cfg := n.cfg.unsealed }
    stops := f.stops.mapAll fun _ x => { x with cfg := x.cfg.unsealed }
    fmu := { f.fmu with cfg := f.fmu.cfg.unsealed, turn := { f.fmu.turn with checked := c } } }

/-- The outcome is published and the TURN completes. -/
def Fabric.turnOutcome (f : Fabric) (st : Status) (info : BitVec 48) : Fabric :=
  let m := f.fmu.turn.m.toNat
  let f1 := f.updTurn fun t => { t with sealed_ := false, quiescing := false, lost := false }
  let f2 := f1.forEach f1.dieIds fun g d => g.updDie d fun x => { x with arm := .idle }
  let ws := [mkWord [(20, statusCode st), (0, f.fmu.turn.tseq.toNat)], BitVec.ofNat 32 m, BitVec.ofNat 32 (m / 2 ^ 32)]
  let f3 := f2.updRes fun r => { r with turn := r.turn.publish ws }
  match f3.running .fmu ocTurn with
  | some e => f3.finish .fmu e.eid st info
  | none => f3

/-- TURN_OUTCOME (R342): the swap reports are in, or the turn has failed and is disarmed. -/
def execTurnOutcome (s : State) : Host.Outcome State Fault Refusal :=
  s.run fun f => f.when (f.live && f.fmu.turn.sealed_) fun f =>
    let t := f.fmu.turn
    if t.swapped then f.unseal.turnOutcome .ok (BitVec.ofNat 48 (t.tseq.toNat * 2 ^ 32))
    else match t.fail with
      | none => f
      | some (st, info) =>
        if f.undisarmed.isEmpty || f.fmu.stop.stopped || f.time.fcc ≥ t.swapAt then
          (f.unseal.raiseFmu .turnFail (t.m.toNat + statusCode st * 2 ^ 44)).turnOutcome st info
        else f

/-! ## DRAIN (R345-R347) -/

/-- DEDUCED (log entry 62). -/
def Fabric.updDrain (f : Fabric) (g : Drain → Drain) : Fabric := f.updFmu fun m => { m with drain := g m.drain }

/-- An epoch is confirmed empty. -/
def Fabric.drained (f : Fabric) (e : BitVec 1) : Bool :=
  if e = 0 then f.fmu.drain.confirmed0 else f.fmu.drain.confirmed1

/-- DRAIN (R345). `DTMO` 0 acts as 1. DEDUCED (log entries 60, 61, 62). -/
def execDrain (s : State) : Host.Outcome State Fault Refusal :=
  s.run fun f => f.startMgmt ocDrain fun f e =>
    let ep : BitVec 1 := BitVec.ofNat 1 (fld e.op 95 95)
    if ep = f.epoch then f.refuseOp e 0x0A
    else if f.fmu.turn.sealed_ then f.refuseOp e 0x0B
    else
      let f1 := f.updRes fun r => { r with drain := r.drain.start }
      if f1.drained ep then f1.finish .fmu e.eid .ok 0
      else f1.updDrain fun d => { d with epoch := some ep, left := max 1 (fld e.op 79 64), sampled := none }

/-- The samples of a boundary (R345). -/
def Fabric.drainSample (f : Fabric) : Fabric :=
  match f.fmu.drain.epoch with
  | none => f
  | some e =>
    if f.fmu.drain.left = 0 then f
    else
      let n := (f.dieIds.map (f.dieResidue e)).sum
      let w := match f.largest e with
        | some u => mkWord [(28, f.unitKind u), (0, (UnitId.num u))]
        | none => 0
      let f1 := f.forEach f.dieIds fun g d => g.updDie d fun x =>
        { x with resid := x.resid.put e.toNat (BitVec.ofNat 32 (f.dieResidue e d)) }
      f1.updDrain fun d => { d with sampled := some n, where_ := w, left := if n = 0 then d.left else d.left - 1 }

/-- The store's tables of epoch e become a copy of the other epoch's. -/
def CfgStore.copyTo (c : CfgStore) (e : BitVec 1) : CfgStore :=
  if e = 0 then { c with ep0 := c.ep1 } else { c with ep1 := c.ep0 }

/-- The steps of R346. -/
def Fabric.confirmEmpty (f : Fabric) (e : BitVec 1) : Fabric :=
  let keep (l : List CacheEnt) : List CacheEnt := l.filter fun x => x.epoch != e
  let f1 := { f with nis := f.nis.mapAll fun _ n => { n with ini := { n.ini with rc := keep n.ini.rc, gc := keep n.ini.gc } } }
  let f2 := f1.forEach (f1.niPorts.filter fun p => (f1.sport p).pwr == .isolating) fun g p =>
    if (g.ni p).quiet && !g.comesBack p then g.gatePort p
    else g.updNi p fun n => { n with pwr := { n.pwr with drained := true } }
  let f3 := { f2 with
    nis := f2.nis.mapAll fun _ n => { n with cfg := n.cfg.copyTo e }
    stops := f2.stops.mapAll fun _ x => { x with cfg := x.cfg.copyTo e } }
  let f4 := (f3.updTurn fun t => { t with writable := true, def0 := t.def0 && e != 0 }).updDrain fun d =>
    { d with epoch := none, sampled := none
             confirmed0 := d.confirmed0 || e == 0, confirmed1 := d.confirmed1 || e == 1 }
  if f4.boot.latch == 7 && f4.fmu.turn.tseq != 0 then f4.bootStep 8 else f4

/-- A sum is published. -/
def Fabric.publishDrain (f : Fabric) (e : BitVec 1) (n : Nat) : Fabric :=
  let ws := [mkWord [(23, e.toNat), (22, b2n (n == 0)), (0, min 65535 n)], f.fmu.drain.where_]
  (f.updRes fun r => { r with drain := r.drain.publish ws }).updDrain fun d => { d with sampled := none }

/-- The running DRAIN completes. -/
def Fabric.finishDrain (f : Fabric) (st : Status) : Fabric :=
  match f.running .fmu ocDrain with
  | some e => f.finish .fmu e.eid st 0
  | none => f

/-- DRAIN_SUM (R345, R346). -/
def execDrainSum (s : State) : Host.Outcome State Fault Refusal :=
  s.run fun f => f.when f.moving fun f =>
    match f.fmu.drain.epoch, f.fmu.drain.sampled with
    | some e, some n =>
      let f1 := f.publishDrain e n
      if n = 0 then (f1.confirmEmpty e).finishDrain .ok else f1
    | _, _ => f

/-- DRAIN_TIMEOUT (R346; 12 R286): `DTMO` boundaries have passed without a zero sum. -/
def execDrainTimeout (s : State) : Host.Outcome State Fault Refusal :=
  s.run fun f => f.when (f.moving && f.fmu.drain.left == 0) fun f =>
    match f.fmu.drain.epoch with
    | none => f
    | some e =>
      let n := match f.fmu.drain.sampled with
        | some n => n
        | none => fld (f.fmu.res.drain.words.headD 0) 15 0
      let f1 := if f.fmu.drain.sampled.isSome then f.publishDrain e n else f
      let w := f.fmu.drain.where_
      let f2 := f1.raiseFmu .drainStuck (fld w 9 0 + fld w 31 28 * 2 ^ 10 + min 65535 n * 2 ^ 32)
      let f3 := f2.forEach (f2.niPorts.filter fun p => (f2.sport p).pwr == .isolating) fun g p => g.raiseFmu .pwrHold p
      (f3.updDrain fun d => { d with epoch := none, sampled := none }).finishDrain .timeout

end Sys2Proof.Machine
end

