-- ==== Sys2Proof/Machine/Swap.lean ====
section
/-! DEFINITION. The swap of a turn: what each unit does at (M, 0), order 3 (15 R334, R337, R343; 04
R86; 05 R107, R124; 06 R130, R142, R149; 10 R233; 12 R286, R287; 13 R303; 17 R373-R379; 18 R400). -/

namespace Sys2Proof.Machine

/-- The staged set writes a register; the staged set writes a table word. DEDUCED (log entry 70). -/
def CfgStore.stagesReg (c : CfgStore) (off : Nat) : Bool := (NMap.find? c.regsStg off).isSome
/-- DEDUCED (log entry 70). -/
def CfgStore.stagesTab (c : CfgStore) (key : Nat) : Bool := (NMap.find? c.tabsStg key).isSome

/-! ## Trees (10 R233) -/

/-- Trees set up at stop s whose grant there the staged set clears or changes. DEDUCED (log entry 72). -/
def Fabric.regranted (f : Fabric) (s : Nat) : List Nat :=
  ((f.stopU s).cfg.tabsStg.filter fun e => e.1 / 2 ^ 24 == 2 && e.1 % 8 == 0).filterMap fun e =>
    let old := f.stopTab s 2 (e.1 % 2 ^ 24)
    let tree := fld old 11 0
    if bit old 31 && old != e.2 && f.treeAt s tree == some (e.1 % 2 ^ 24 / 8) then some tree else none

/-- Trees that lose a grant are torn down in every RDU. DEDUCED (log entry 72). -/
def Fabric.dropRegranted (f : Fabric) : Fabric :=
  f.forEach (f.stopIds.flatMap f.regranted).eraseDups fun g t => g.tearDown t

/-- Set-up trees whose path uses one of the link directions, or a stop of the list. -/
def Fabric.treesOver (f : Fabric) (links : List (Nat × Nat)) (gone : List Nat) : List (Nat × Nat) :=
  f.stopIds.flatMap fun s => (f.grants s).filterMap fun e =>
    let tree := fld e.2 11 0
    let w := f.trw s e.1 1
    if twRole w == 0 || f.treeAt s tree != some e.1 then none
    else if gone.contains s || (twRole w != 3 && links.contains (s, twOut w)) then some (tree, s) else none

/-- Trees over withdrawn links or bypassed stops break. DEDUCED (log entry 76). -/
def Fabric.breakTrees (f : Fabric) (links : List (Nat × Nat)) (gone : List Nat) : Fabric :=
  let hit := f.treesOver links gone
  let first := hit.filter fun x => !hit.any fun y => y.1 == x.1 && y.2 < x.2
  f.forEach first fun g x => (g.markTree x.1 29 true).raiseFmu .treeBroken (x.1 * 2 ^ 32 + x.2)

/-! ## Settings that reload (05 R107, R124; 06 R130, R142) -/

/-- Meter words that stay in use up to the refill: those of the domains whose settings are staged.
DEDUCED (log entry 92). -/
def Fabric.oldMeters (f : Fabric) (p : Nat) : WMap :=
  let staged (d w : Nat) : Word := NMap.get (f.ni p).cfg.tabsStg (tkey 2 (4 * d + w)) (f.niTab p 2 (4 * d + w))
  let changed (d : Nat) : Bool :=
    bit (staged d 0) 31 != bit (f.niTab p 2 (4 * d)) 31 ||
    (f.ni p).cfg.stagesTab (tkey 2 (4 * d + 1)) || (f.ni p).cfg.stagesTab (tkey 2 (4 * d + 2))
  ((List.range 64).filter changed).flatMap fun d => (List.range 3).map fun w => (4 * d + w, f.niTab p 2 (4 * d + w))

/-- Control-credit words that stay in use up to the refill. DEDUCED (log entry 92). -/
def Fabric.oldCredits (f : Fabric) (p : Nat) : WMap :=
  ([0x330, 0x334].filter (f.ni p).cfg.stagesReg).map fun off => (off, f.niReg p off)

/-- What an NI reloads. `old` is the fabric before the swap. -/
def Fabric.reloadNi (f old : Fabric) (p : Nat) : Fabric :=
  let c := (old.ni p).cfg
  let meters := old.oldMeters p
  let cred := old.oldCredits p
  let seed := tieSeed (f.niReg p 0x204)
  let wmax := fld (f.niReg p 0x300) 31 20
  let quant := (List.range 64).any fun d => c.stagesTab (tkey 2 (4 * d))
  let clamp (w : WinState) : WinState :=
    if c.stagesReg 0x300 then { w with win := f.dieIds.foldl (fun m d => m.put d (min wmax (m.get d 0x400))) w.win } else w
  f.updNi p fun n => { n with
    wnd := clamp n.wnd
    inj := { n.inj with
      lfsr := if c.stagesReg 0x204 then seed else n.inj.lfsr
      deficits := if quant then [] else n.inj.deficits
      meterOld := if meters.isEmpty then n.inj.meterOld else some meters
      ccOld := if cred.isEmpty then n.inj.ccOld else cred }
    obs := { n.obs with traceCnt := if c.stagesReg 0x1300 then [] else n.obs.traceCnt } }

/-- What a stop reloads. -/
def Fabric.reloadStop (f old : Fabric) (s : Nat) : Fabric :=
  let c := (old.stopU s).cfg
  let seed := fld (f.stopReg s 0x204) 15 0
  f.updStop s fun x => { x with arb := { x.arb with
    outPtr := if c.stagesReg 0x204 then (List.range 8).map fun o => (o, (seed + 3 * o) % 8) else x.arb.outPtr
    deficits := if c.stagesReg 0x220 then [] else x.arb.deficits
    cur := if c.stagesReg 0x220 then [] else x.arb.cur } }

/-- A packet that a stop has built and not yet begun to send takes the epoch in force. -/
def QPkt.renew (q : QPkt) (e : BitVec 1) : QPkt :=
  { q with
    hdr := Header.seal { q.hdr with epoch := e }
    route := match q.route with
      | .go bs => .go (bs.map fun b => { b with hdr := Header.seal { b.hdr with epoch := e } })
      | r => r }

/-- What a stop has built and not begun to send takes the new epoch; unicast answers are resolved anew
(04 R96, R445). -/
def Fabric.renewOwn (f : Fabric) (s : Nat) : Fabric :=
  f.forEach ((List.range 12).map (12 * ownInput + ·)) fun g key =>
    let l := g.stopQ s key
    let begun (q : QPkt) : Bool := match q.route with
      | .go bs => bs.any (·.headSent)
      | _ => true
    let g1 := g.setStopQ s key (l.filter begun)
    g1.forEach (l.filter fun q => !begun q) fun h q =>
      if q.hdr.dmode == 0 then h.stopAnswer s q.packet
      else h.setStopQ s key (h.stopQ s key ++ [q.renew h.epoch])

/-- Egress credit of every valid Gateway Select entry starts anew (13 R303). -/
def Fabric.startEgress (f : Fabric) (p : Nat) : Fabric :=
  let gws := ((List.range 16).filterMap fun i =>
    let w := f.niEp p f.epoch 1 i
    if bit w 31 then some (fld w 9 0) else none).eraseDups
  let init := f.egInit p
  f.updNi p fun n => { n with ini := { n.ini with
    egCredit := gws.foldl (fun m g => m.put g ((init : Int) - n.ini.egCharged.get g 0)) n.ini.egCredit } }

/-! ## Reservations (06 R149) -/

def Fabric.admitAt (f old : Fabric) : Fabric :=
  let staged := (List.range 1024).filter fun i =>
    old.fmu.cfg.stagesTab (tkey 0 (2 * i)) || old.fmu.cfg.stagesTab (tkey 0 (2 * i + 1))
  f.forEach staged fun g i =>
    let w := admTurn (old.fmuTab 0 (2 * i)) (old.fmuTab 0 (2 * i + 1)) (g.fmuTab 0 (2 * i)) (g.fmuTab 0 (2 * i + 1))
      g.fmu.turn.tseq
    g.updFmu fun m => { m with cfg := { m.cfg with tabs := m.cfg.tabs.put (tkey 0 (2 * i)) w } }

/-! ## Substitutions (17 R373-R379, R384) -/

/-- A record joins the spare map unless it is there. DEDUCED (log entry 73). -/
def Fabric.keepSpare (f : Fabric) (r : Nat × Nat × Nat × Word) : Fabric :=
  if f.fmu.spares.contains r then f else f.recordSpare r

/-- The direction that leaves stop s on output o waits for its training. -/
def Fabric.awaitTraining (f : Fabric) (s o : Nat) : Fabric := f.updTx (.st s o) fun t => { t with retrain := true }

/-- The link of a ring output is withdrawn by a turn, at both ends, and will be trained.
DEDUCED (log entry 59). -/
def Fabric.takeDown (f : Fabric) (s o : Nat) : Fabric :=
  let n := f.nbr s o
  (((f.withdrawQuiet s o).withdrawQuiet n (opposite o)).awaitTraining s o).awaitTraining n (opposite o)

/-- Both directions of a link. -/
def Fabric.bothWays (f : Fabric) (s o : Nat) : List (Nat × Nat) := [(s, o), (f.nbr s o, opposite o)]

/-- SPKIND 0x0: spare j of ring input i stands in for wire w. -/
def Fabric.spareWireNow (f : Fabric) (s : Nat) (w : Word) : Fabric :=
  let i := fld w 3 0
  let u : Nat × Nat := (fld w 17 15, fld w 14 4)
  (f.updStop s fun x => { x with wear := x.wear.upd i {} fun y => { y with
    spares := y.spares ++ [u], wcount := y.wcount.del u.2 } }).recordSpare (0, s, 8 * i + u.1, w)

/-- SPKIND 0x1: the link of output o is withdrawn and trained again. DEDUCED (log entry 73). -/
def Fabric.retrainNow (f : Fabric) (s : Nat) (w : Word) : Fabric :=
  let o := fld w 3 0
  ((f.breakTrees (f.bothWays s o) []).takeDown s o).keepSpare (1, s, 0, w)

/-- SPKIND 0x2: a VC moves to the spare bank of its input. -/
def Fabric.bankNow (f : Fabric) (s : Nat) (w : Word) : Fabric :=
  let i := fld w 3 0
  let v := fld w 7 4
  (f.updStop s fun x => { x with spare := { x.spare with
    bankVc := x.spare.bankVc.put i v, parity := x.spare.parity.del (12 * i + v) } }).recordSpare (2, s, 0, w)

/-- SPKIND 0x3: the spare crossbar slice is used. -/
def Fabric.sliceNow (f : Fabric) (s : Nat) (w : Word) : Fabric :=
  (f.updStop s fun x => { x with spare := { x.spare with
    slice := some (fld w 2 0), sliceAt := some f.time.fcc } }).recordSpare (3, s, 0, w)

/-- What a bypassed stop holds is discarded. -/
def Stop.emptied (x : Stop) : Stop :=
  { x with vq := [], leaf := [], arb := {}, tx := [], rx := [], rdu := { x.rdu with bufs := [] } }

/-- SPKIND 0x4, bypass: the links that meet the stop are withdrawn and trained as joined links. -/
def Fabric.bypassNow (f : Fabric) (s : Nat) (w : Word) : Fabric :=
  let dirs := List.range 4
  let f0 := f.breakTrees (dirs.flatMap fun o => f.bothWays s o) [s]
  let f1 := f0.forEach dirs fun g o => g.takeDown s o
  let ends := dirs.map fun o => (f1.nbr s o, opposite o)
  let f2 := (f1.updStop s Stop.emptied).setBypass s true
  (f2.forEach ends fun g x => g.awaitTraining x.1 x.2).keepSpare (4, s, 0, w)

/-- SPKIND 0x4, restore: the stop's four links are trained again. DEDUCED (log entry 74). -/
def Fabric.restoreNow (f : Fabric) (s : Nat) : Fabric :=
  let dirs := List.range 4
  let f0 := f.breakTrees (dirs.map fun o => (f.nbr s o, opposite o)) []
  let f1 := f0.setBypass s false
  let f2 := f1.forEach dirs fun g o => g.takeDown s o
  f2.updFmu fun m => { m with spares := m.spares.filter fun r => r.1 != 4 || r.2.1 != s }

/-- SPKIND 0x5: the spare attachment takes over a gateway index; what the failed gateway held is void,
and its waiting requests are answered `TIMEOUT`. DEDUCED (log entry 17). -/
def Fabric.gatewayNow (f : Fabric) (p : Nat) (w : Word) : Fabric :=
  let old := gwPortOf (dieOfPort p) (fld w 3 0)
  let held := (f.ni old).gw.egress
  let f1 := f.updNi old fun n => { n with gw := { n.gw with egress := [], egUsed := 0, tokens := [], tokAsked := [] } }
  let f2 := held.foldl (fun g x => g.egAnswer old x.1 .timeout) f1
  let f3 := { f2 with nis := f2.nis.mapAll fun _ n => { n with ini := { n.ini with
    egCredit := n.ini.egCredit.del old, egCharged := n.ini.egCharged.del old } } }
  f3.recordSpare (5, p, 0, w)

/-- SPKIND 0x6: the die's slice keeps one tree. -/
def Fabric.treeNow (f : Fabric) (d : Nat) (w : Word) : Fabric :=
  ((f.updDie d fun x => { x with treeB := bit w 0 }).updFmu fun m =>
    { m with spares := m.spares.filter fun r => r.1 != 6 || r.2.1 != d }).recordSpare (6, d, 0, w)

/-- A staged power change at the swap: ISOLATING, or ON once its NI is ready. -/
def Fabric.powerNow (f : Fabric) (p : Nat) (on : Bool) : Fabric :=
  (f.updNi p fun n => { n with pwr := { n.pwr with drained := false } }).updSport p fun x => { x with pwr := match on, x.pwr with
    | false, .on => .isolating
    | true, .waking => .on
    | true, .isolating => .on
    | _, w => w }

/-- A staged action takes effect. -/
def Fabric.act (f : Fabric) (a : Action) : Fabric :=
  match a with
  | .power p on => f.powerNow p on
  | .spare 0 u w => f.spareWireNow u w
  | .spare 1 u w => f.retrainNow u w
  | .spare 2 u w => f.bankNow u w
  | .spare 3 u w => f.sliceNow u w
  | .spare 4 u w => if bit w 0 then f.bypassNow u w else f.restoreNow u
  | .spare 5 u w => f.gatewayNow u w
  | .spare 6 u w => f.treeNow u w
  | .spare .. => f

/-! ## The speed change (18 R400, R401) -/

/-- Full speed begins: every bridge endpoint sets `PAD` to what it measured at arming, crawl service
ends, and bring-up is done. DEDUCED (log entry 112). -/
def Fabric.speedNow (f : Fabric) : Fabric :=
  let f1 := f.forEach f.stopIds fun g s => g.forEach (g.bridgeInputs s) fun h i =>
    h.updRx (.st s (opposite i)) fun r => { r with pad := some (BitVec.ofNat 5 (23 - r.xMeas)) }
  (f1.updBoot fun b => { b with crawl := false, done := true }).bootStep 9

/-! ## The swap -/

/-- Ports whose power comes on with the turn: a power event for the digest. -/
def Fabric.powersOn (f : Fabric) : Bool :=
  f.fmu.drain.actions.any fun a => match a with
    | .power p true => (f.sport p).pwr == .waking || (f.sport p).pwr == .isolating
    | _ => false

/-- The configuration and the turn's own state after the swap. -/
def Fabric.swapCfg (f : Fabric) : Fabric :=
  let e := f.epoch
  let f1 := f.turnedCfg.updTurn fun t => { t with
    tseq := t.tseq + 1, writable := false, checked := false, swapped := true }
  f1.updDrain fun d => { d with
    confirmed0 := d.confirmed0 && e != 0, confirmed1 := d.confirmed1 && e != 1 }

/-- Every armed unit swaps (R343). DESIGN CHOICE (log entry 20). -/
def Fabric.swapNow (f : Fabric) : Fabric :=
  let wakes := f.powersOn
  let quiesced := f.fmu.turn.quiescing
  let f0 := f.dropRegranted
  let f1 := f0.swapCfg
  let f2 := f1.forEach f1.niPorts fun g p => g.reloadNi f0 p
  let f3 := f2.forEach f2.stopIds fun g s => (g.reloadStop f0 s).renewOwn s
  let f4 := f3.admitAt f0
  let f5 := f0.fmu.drain.actions.foldl Fabric.act f4
  let f6 := f5.forEach (f5.portIds.filter fun p => f5.kind p == 1) fun g p => g.startEgress p
  let f7 := f6.updFmu fun m => { m with
    drain := { m.drain with actions := [] }
    fault := { m.fault with repairs := m.fault.repairs.filter fun r => !r.staged } }
  let f7 := f7.updFmu fun m => { m with dig := { m.dig with dsrValid := false, dsrAt := f.time.fcc } }
  let f8 := f7.forEach f7.dieIds fun g d => g.updDie d fun x => { x with swapped := true }
  let f9 := if quiesced then (f8.setQuiesce false).speedNow else f8
  let g := (f9.reapAll).digestEvent 0
  if wakes then g.digestEvent 2 else g

end Sys2Proof.Machine
end

