-- ==== Sys2Proof/Machine/Instants.lean ====
section
/-! DEFINITION. Scheduled instants in their order: the global stop, the counter freeze, the turn swap
and the milestone bookkeeping; resume; the end of a retraining (02 R38, R46, R52-R54; 06 R144; 14
R329; 16 R360, R366-R370; 17 R374, R382; 19 R409, R411, R413, R415, R419; 18 R391, R396). -/

namespace Sys2Proof.Machine

/-! ## Captures -/

/-- Every unit as it stands. -/
def Fabric.view (f : Fabric) : View :=
  { fcc := f.time.fcc, cycles := f.time.cycles, skew := f.time.skew, fmu := f.fmu, dies := f.dies, stops := f.stops, nis := f.nis }

/-- The nondeterminism counts are captured (14 R329). A freeze capture that is not acknowledged is
not replaced by a milestone capture. DEDUCED (log entry 86). -/
def Fabric.captureNdet (f : Fabric) (freeze : Bool) : Fabric :=
  let shown := f.fmu.res.ndet.valid && bit (f.fmu.res.ndet.word 0) 23
  let held := shown || f.fmu.dig.ndetCaps.any (·.1)
  if !freeze && held then f
  else
    let ties := f.nis.foldl (fun a n => a + n.2.inj.ndet) (0 : Word)
    let arr := f.stops.foldl (fun a x => a + x.2.rdu.ndet) (0 : Word)
    f.updFmu fun m => { m with dig := { m.dig with ndetCaps := m.dig.ndetCaps ++ [(freeze, f.msc, ties, arr)] } }

/-- The running SNAPs with the given `STOP` bit, the oldest first. DEDUCED (log entry 79). -/
def Fabric.runningSnaps (f : Fabric) (stop : Bool) : List QEntry :=
  f.fmu.chan.queue.filter fun e => e.started && opcOf e.op == ocSnap && bit e.op 95 == stop

/-- They complete `OK`. DEDUCED (log entry 79). -/
def Fabric.finishSnap (f : Fabric) (stop : Bool) : Fabric :=
  (f.runningSnaps stop).foldl (fun h e => h.finish .fmu e.eid .ok 0) f

/-! ## The global stop (16 R368, R369) -/

/-- Every data-plane unit freezes and its snapshot is recorded; a sealed turn fails (15 R341).
DEDUCED (log entries 75, 78, 80). -/
def Fabric.stopNow (f : Fabric) (at_ : Nat) (cause : Bool) : Fabric :=
  let t := f.fmu.turn
  let f1 := { f with
    snap := some f.view
    nis := f.nis.mapAll fun _ n => { n with tsq := { n.tsq with fip := {} } } }
  let f2 := f1.updFmu fun m => { m with stop := { m.stop with
    stopAt := none, stopped := true, cause := cause, lastAt := at_, publish := true
    frozeAt := if m.stop.stopped then m.stop.frozeAt else at_ } }
  if t.sealed_ && !t.swapped && !t.disarming then f2.disarm .aborted 0 else f2

/-! ## The counter freeze (19 R411) -/

/-- Every unit captures its counters; the freeze is published and its SNAP completes. DEDUCED (log entry 77). -/
def Fabric.freezeNow (f : Fabric) (at_ : Nat) : Fabric :=
  let w := fccWord at_
  let ws := [BitVec.ofNat 32 (at_ / msLen % 65536), w.extractLsb' 0 32, w.extractLsb' 32 32]
  let f1 := { f with frz := some f.view }
  let f2 := f1.updFmu fun m => { m with
    stop := { m.stop with freezeAt := none }, res := { m.res with frz := m.res.frz.publish ws } }
  (f2.captureNdet true).finishSnap false

/-! ## What is scheduled (02 R54) -/

/-- A scheduled event. -/
inductive Sched where
  | deadline
  | disarm
  | stop (cause : Bool)
  | freeze
  | swap
  deriving DecidableEq, Repr

/-- A sealed turn whose dies have all armed in time. -/
def Turn.armed (t : Turn) : Bool := t.sealed_ && t.deadlinePassed && !t.disarming && !t.swapped

/-- The scheduled events with their instants, in the order they take at one instant. -/
def Fabric.scheduled (f : Fabric) : List (Nat × Sched) :=
  let t := f.fmu.turn
  (if t.arming then [(t.armBy, .deadline)] else []) ++
  (if f.disarmAwaited then [(t.disarmBy, .disarm)] else []) ++
  (match f.fmu.stop.stopAt with | some (a, c) => [(f.slotOf a, .stop c)] | none => []) ++
  (match f.fmu.stop.freezeAt with | some a => [(f.slotOf a, .freeze)] | none => []) ++
  (if t.armed then [(t.swapAt, .swap)] else [])

/-- The earliest event up to instant t; of equal instants the first of the list. -/
def earliest (t : Nat) : List (Nat × Sched) → Option (Nat × Sched)
  | [] => none
  | e :: l => match earliest t l with
    | some d => if e.1 ≤ d.1 && e.1 ≤ t then some e else some d
    | none => if e.1 ≤ t then some e else none

def Fabric.doSched (f : Fabric) (e : Nat × Sched) : Fabric :=
  let g := f.reach e.1
  match e.2 with
  | .deadline => g.deadline
  | .disarm => g.disarmLost
  | .stop c => g.stopNow e.1 c
  | .freeze => g.freezeNow e.1
  | .swap => g.swapNow

/-- Every event scheduled up to instant t takes effect. Each one removes itself, so six are enough.
DEDUCED (log entry 88). -/
def Fabric.runSched (f : Fabric) (t : Nat) : Nat → Fabric
  | 0 => f
  | n + 1 => match earliest t f.scheduled with
    | some e => (f.doSched e).runSched t n
    | none => f

/-- The scheduled events up to t. -/
def Fabric.instant (f : Fabric) (t : Nat) : Fabric := f.runSched t 6

/-- An event at order 1-3 is due up to the next milestone boundary, the boundary included.
DESIGN CHOICE (log entry 9). -/
def Fabric.dueAt (f : Fabric) (t : Nat) : Bool := t ≤ (f.time.booked + 1) * msLen

/-- GLOBAL_STOP (16 R368). -/
def execGlobalStop (s : State) : Host.Outcome State Fault Refusal :=
  s.run fun f => f.when f.live fun f => match f.fmu.stop.stopAt with
    | some (a, _) => if f.dueAt a then f.instant (f.slotOf a) else f
    | none => f

/-- COUNTER_FREEZE (19 R411). -/
def execCounterFreeze (s : State) : Host.Outcome State Fault Refusal :=
  s.run fun f => f.when f.live fun f => match f.fmu.stop.freezeAt with
    | some a => if f.dueAt a then f.instant (f.slotOf a) else f
    | none => f

/-- TURN_SWAP (15 R343): at (M, 0), unless a global stop comes first. -/
def execTurnSwap (s : State) : Host.Outcome State Fault Refusal :=
  s.run fun f => f.when (f.moving && f.fmu.turn.sealed_ && !f.fmu.turn.swapped && f.dueAt f.fmu.turn.swapAt) fun f =>
    f.instant f.fmu.turn.swapAt

/-- SNAPSHOT_PUBLISH (16 R369, R371). -/
def execSnapshotPublish (s : State) : Host.Outcome State Fault Refusal :=
  s.run fun f => f.when (f.live && f.fmu.stop.publish) fun f =>
    let c := f.fmu.stop
    let ws := [mkWord [(23, b2n c.cause), (0, ((f.snap.map (·.fcc)).getD c.lastAt) / msLen % 65536)]]
    (f.updFmu fun m => { m with
      stop := { m.stop with publish := false }, res := { m.res with snap := m.res.snap.publish ws } }).finishSnap true

/-! ## Resume (16 R370) -/

/-- The frozen timers of an NI and of a stop go on where they stood: their instants move by d. -/
def LinkTx.later (t : LinkTx) (d : Nat) : LinkTx := { t with ackAt := t.ackAt.map (· + d) }
def LinkRx.later (r : LinkRx) (d : Nat) : LinkRx :=
  { r with lastIntact := r.lastIntact + d, landing := r.landing.map fun x => { x with at_ := x.at_ + d } }
def vqLater (v : NMap (List QPkt)) (d : Nat) : NMap (List QPkt) :=
  v.mapAll fun _ l => l.map fun q => { q with at_ := q.at_ + d }
def Chan.later (c : Chan) (d : Nat) : Chan :=
  { c with queue := c.queue.map fun e => { e with work := { e.work with startAt := e.work.startAt + d } } }
/-- DEDUCED (log entry 83). -/
def Ni.later (n : Ni) (d : Nat) : Ni :=
  { n with
    tx := n.tx.later d, rx := n.rx.later d, vq := vqLater n.vq d
    inj := { n.inj with queues := n.inj.queues.mapAll fun _ l => l.map fun o => { o with at_ := o.at_ + d } }
    wnd := { n.wnd with holdUntil := n.wnd.holdUntil.mapAll fun _ t => t + d }
    ini := { n.ini with ort := n.ini.ort.map fun o => { o with since := o.since + d }
                        heldTags := n.ini.heldTags.map fun h => (h.1, h.2 + d) }
    tsq := { n.tsq with chans := n.tsq.chans.mapAll fun _ c => c.later d }
    tgt := { n.tgt with lines := n.tgt.lines.map fun l => { l with since := l.since + d } }
    gw := { n.gw with egress := n.gw.egress.map fun e => (e.1, e.2 + d)
                      toTransport := n.gw.toTransport.map fun e => (e.1, e.2 + d)
                      tokLast := n.gw.tokLast.mapAll fun _ t => t + d }
    pwr := { n.pwr with waking := n.pwr.waking.map (· + d) } }
/-- DEDUCED (log entry 83). -/
def Stop.later (x : Stop) (d : Nat) : Stop :=
  { x with
    tx := x.tx.mapAll fun _ t => t.later d, rx := x.rx.mapAll fun _ r => r.later d, vq := vqLater x.vq d
    rdu := { x.rdu with bufs := x.rdu.bufs.mapAll fun _ b => { b with openedAt := b.openedAt + d } }
    obs := { x.obs with sinkSince := x.obs.sinkSince.mapAll fun _ t => t + d } }

/-- Counts gathered in a milestone that had ended before the resume are not described by any board or
record (19 R415). -/
def QSample.restart (q : QSample) : QSample :=
  { q with gMaxDelay := 0, gMaxDepth := 0, gSumDepth := 0, gSumDelay := 0 }
/-- DEDUCED (log entry 82). -/
def Stop.forget (x : Stop) : Stop :=
  { x with
    obs := { x.obs with board := [], samples := x.obs.samples.mapAll fun _ q => q.restart }
    wear := x.wear.mapAll fun _ w => { w with wms := [], retriesMs := 0 }
    spare := { x.spare with sliceMs := [] } }
/-- DEDUCED (log entry 82). -/
def Ni.forget (n : Ni) : Ni := { n with obs := { n.obs with samples := n.obs.samples.mapAll fun _ q => q.restart } }

/-- Every unit continues from its frozen state at the boundary t, and Target NIs act on what their
stacks sent meanwhile. -/
def Fabric.resumeAtNow (f : Fabric) (t : Nat) : Fabric :=
  let d := t - f.fmu.stop.frozeAt
  let stale := f.fmu.stop.frozeAt / msLen + 1 < t / msLen
  let stopF (x : Stop) : Stop := let y := x.later d; if stale then y.forget else y
  let niF (n : Ni) : Ni := let y := n.later d; if stale then y.forget else y
  let f1 := { f with stops := f.stops.mapAll fun _ x => stopF x, nis := f.nis.mapAll fun _ n => niF n }
  f1.resumeNow.openInboxes

/-! ## The milestone bookkeeping, order 4 (02 R54) -/

/-- Quiet periods are counted and escalation entries recover (16 R360). DEDUCED (log entry 87). -/
def Fabric.countQuiet (f : Fabric) : Fabric :=
  let quiet (e : EscEntry) : Nat := fld (f.clsWord e.cls.toNat) 15 0
  let aged := f.fmu.fault.esc.map fun e => { e with qrun := e.qrun + 1 }
  let done (e : EscEntry) : Bool := quiet e != 0 && e.qrun ≥ quiet e
  f.updFmu fun m => { m with fault := { m.fault with
    esc := aged.filter fun e => !done e
    rcnt := (aged.filter done).foldl (fun r e => r.upd e.cls.toNat 0 (· + 1)) m.fault.rcnt } }

/-- A boundary without an in-phase tick is missed (02 R46, R51). DEDUCED (log entry 81). -/
def Fabric.judgeTick (f : Fabric) : Fabric :=
  if !f.time.aligned then f
  else if f.taux.tickSeen then f.updAux fun a => { a with tickSeen := false }
  else
    let run := min 255 (f.time.missRun + 1)
    let lim := f.time.missLimit.toNat
    let f1 := f.updTime fun t => { t with holdover := true, missRun := run }
    if lim == 0 || (run == lim && f.time.missRun < lim) then f1.raiseFmu .tickMiss f1.msc else f1

/-- The wear crossings of a stop (17 R382): SPKIND, input, and wire, VC or slice. -/
def Fabric.crossingsOf (f : Fabric) (s : Nat) : List (Nat × Nat × Nat) :=
  let x := f.stopU s
  let w := f.stopReg s 0x400
  let above (thr n : Nat) : Bool := thr != 0 && n > thr
  (List.range 4).flatMap (fun i =>
    let y := x.wear.get i {}
    ((y.wms.filter fun e => above (fld w 11 0) e.2).map fun e => (0, i, e.1)) ++
    (if above (fld w 31 24) y.retriesMs then [(1, i, 0)] else [])) ++
  ((x.spare.sliceMs.filter fun e => above (fld w 23 16) e.2).map fun e => (3, 0, e.1)) ++
  ((x.spare.parity.filter fun e => above (fld w 15 12) e.2).map fun e => (2, e.1 / 12, e.1 % 12))

/-- A stop captures its board counts and wear crossings of the milestone just ended, publishes its
sample records and starts again (19 R409, R413). -/
def Fabric.closeStop (f : Fabric) (s : Nat) (mseq : Word) : Fabric :=
  let cs := f.crossingsOf s
  let hit (i : Nat) : Bool := cs.any fun c => c.1 < 2 && c.2.1 == i
  f.updStop s fun x =>
    let count (o : Nat) : Nat × BoardCnt :=
      let b := x.obs.board.get o {}
      let w := x.wear.get o {}
      (o, if o < 4 then { b with retries := w.retriesMs, wear := hit o } else b)
    let pub (q : QSample) : QSample :=
      { words := [mkWord [(16, q.gMaxDelay), (0, q.gMaxDepth)], BitVec.ofNat 32 q.gSumDepth, BitVec.ofNat 32 q.gSumDelay] }
    { x with
      obs := { x.obs with board := [], captured := (List.range 8).map count, crossings := cs
                          samples := x.obs.samples.mapAll fun _ q => pub q, mseq := mseq }
      wear := x.wear.mapAll fun i w => { w with wms := [], retriesMs := 0, crossed := hit i }
      spare := { x.spare with sliceMs := [] } }
def Fabric.closeNi (f : Fabric) (p : Nat) (mseq : Word) : Fabric :=
  f.updNi p fun n =>
    let pub (q : QSample) : QSample :=
      { words := [mkWord [(16, q.gMaxDelay), (0, q.gMaxDepth)], BitVec.ofNat 32 q.gSumDepth, BitVec.ofNat 32 q.gSumDelay] }
    { n with obs := { n.obs with samples := n.obs.samples.mapAll fun _ q => pub q, mseq := mseq } }

/-- The FMU asks every stop for its board; an unfinished gathering of the milestone before is given
up. DEDUCED (log entry 84). -/
def Fabric.gatherBoards (f : Fabric) (ms : Nat) : Fabric :=
  let other (x : UnitId × Order) : Bool := match x.2 with | .gather _ => false | _ => true
  f.updFmu fun m => { m with
    boards := { m.boards with gathering := some ms, gathered := [] }
    road := { m.road with orders := m.road.orders.filter other ++ f.stopIds.map fun s => (.stop s, .gather ms)
                          answers := m.road.answers.filter other } }

/-- A record enters the buffer of a die, behind the loss record that is owed; it is dropped where there
is no room (19 R420). -/
def Trace.put (t : Trace) (r : BitVec 256) (fcc : Nat) : Trace :=
  let used := (t.wptr - t.rptr).toNat
  let add (t : Trace) (r : BitVec 256) : Trace :=
    { t with buf := t.buf.put (t.wptr.toNat % 32768) r, wptr := t.wptr + 1 }
  if t.owed = 0 then (if used < 32768 then add t r else t.drop fcc)
  else if used + 2 ≤ 32768 then
    let loss := traceRec 5 fcc (t.owed * 2 ^ 160 + t.firstDrop.toNat * 2 ^ 100)
    add { add t loss with owed := 0 } r
  else t.drop fcc

/-- A time mark of a die (R419, R421). DEDUCED (log entry 87). -/
def Fabric.timeMark (f : Fabric) (d : Nat) : Fabric :=
  if f.tracing d && bit (f.niReg (slicePort d) 0x1310) 28 then
    let low := f.fmu.turn.tseq.toNat * 2 ^ 176 + f.epoch.toNat * 2 ^ 175
    f.updDie d fun x => { x with trace := x.trace.put (traceRec 6 f.time.fcc low) (f.fccOf d) }
  else f

/-- Crawl service opens at the first boundary after every link is up (18 R396). -/
def Fabric.openCrawl (f : Fabric) : Fabric :=
  if f.boot.latch == 6 && !f.boot.fail then
    (f.bootStep 7).updFmu fun m => { m with prog := { m.prog with open_ := true } }
  else f

/-- The bookkeeping at the boundary that ends milestone ms. -/
def Fabric.bookkeep (f : Fabric) (ms : Nat) : Fabric :=
  let t := (ms + 1) * msLen
  let f1 := match f.fmu.stop.resumeAt with
    | some r => if f.fmu.stop.stopped && r ≤ t then f.resumeAtNow t else f
    | none => f
  let f2 := (f1.countQuiet).judgeTick
  let f3 := f2.when (!f2.fmu.stop.stopped) fun g =>
    let mseq := BitVec.ofNat 32 (ms % 65536)
    let g1 := g.forEach g.stopIds fun h s => h.closeStop s mseq
    let g2 := g1.forEach g1.niPorts fun h p => h.closeNi p mseq
    (((g2.gatherBoards ms).drainSample).captureNdet false)
  (f3.forEach f3.dieIds fun g d => g.timeMark d).openCrawl

/-- The next milestone boundary is reached: the events scheduled up to it, then its bookkeeping.
DEDUCED (log entry 86). -/
def Fabric.milestone (f : Fabric) : Fabric :=
  let ms := f.time.booked
  let t := (ms + 1) * msLen
  (((f.instant t).reach t).updTime fun x => { x with booked := ms + 1 }).bookkeep ms

/-- MILESTONE_BOUNDARY (02 R38, R54). -/
def execMilestoneBoundary (s : State) : Host.Outcome State Fault Refusal :=
  s.run fun f => f.when f.live Fabric.milestone

/-! ## The end of a retraining (17 R374, R377) -/

/-- The state in which a trained ring output comes up. -/
def Fabric.upState (f : Fabric) (s o : Nat) : LinkState :=
  if f.nbr s o == neighbour f.variant s o then .up else .joined

/-- A link fails its training: both ends stay withdrawn and report it. -/
def Fabric.retrainFailed (f : Fabric) (s o : Nat) : Fabric :=
  let down (f : Fabric) (s o : Nat) : Fabric :=
    ((f.withdrawQuiet s o).updTx (.st s o) fun t => { t with retrain := false }).raiseStop s .linkWithdrawn
      (o + 16 * b2n (f.bridge s o))
  let f1 := down (down f s o) (f.nbr s o) (opposite o)
  (f1.reap s).reap (f.nbr s o)

/-- RETRAIN_COMPLETE (17 R374): the direction that leaves a stop on an output ends its training.
DESIGN CHOICE (log entry 114). -/
def execRetrainComplete (stop output : Nat) (good : Bool) (failed : List Nat) (x : Nat) (s : State) :
    Host.Outcome State Fault Refusal :=
  s.run fun f => f.when
    (f.moving && stop < nStops f.variant && output < 4 && !(f.stopU stop).spare.bypass && (f.txOf stop output).retrain) fun f =>
      let r := f.nbr stop output
      let (f1, short) := f.repairWires r output (f.bridge stop output) failed
      if good && !short then f1.linkEnters stop output (f.upState stop output) x
      else f1.retrainFailed stop output

end Sys2Proof.Machine
end

