-- ==== Sys2Proof/Machine/Observe.lean ====
section
/-! DEFINITION. What the fabric keeps of its own work: the traffic board and its wear crossings, queue
samples and op samples, and the acknowledges of the freeze and the board (06 R144; 17 R382, R383; 19
R409, R411, R413-R415, R418-R421). -/

namespace Sys2Proof.Machine

/-! ## The board (R413, R414) -/

/-- CNT_GATHER_RECEIVE (R413): a stop answers the order of the milestone that is being gathered.
DEDUCED (log entry 85). -/
def execCntGatherReceive (stop : Nat) (s : State) : Host.Outcome State Fault Refusal :=
  s.run fun f => f.when f.moving fun f =>
    let mine (x : UnitId × Order) : Bool := match x.1, x.2 with
      | .stop t, .gather _ => t == stop
      | _, _ => false
    match takeFirst mine f.fmu.road.orders with
    | none => f
    | some (o, rest) => f.updFmu fun m => { m with road := { m.road with
        orders := rest, answers := m.road.answers ++ [o] } }

/-- Words 0-3 of a board entry (R414). -/
def BoardCnt.words (b : BoardCnt) : List Word :=
  let n21 (n : Nat) : Nat := n % 2 ^ 21
  [mkWord [(0, n21 b.flits)], mkWord [(24, min 255 b.retries), (23, b2n b.wear), (0, n21 b.heads)],
   mkWord [(0, n21 b.mild)], mkWord [(0, n21 b.severe)]]

/-- A board enters the presented copy. -/
def Fabric.presentBoard (f : Fabric) (ms : Nat) (b : NMap (NMap BoardCnt)) : Fabric :=
  f.updFmu fun m => { m with
    boards := { m.boards with presented := b, filling := none }
    res := { m.res with board := m.res.board.publish [mkWord [(16, m.boards.missed), (0, ms % 65536)]] } }

/-- A completed board is presented, or replaces the filling board while the presented one is not
acknowledged. DEDUCED (log entry 120). -/
def Fabric.enterBoard (f : Fabric) (ms : Nat) (b : NMap (NMap BoardCnt)) : Fabric :=
  if f.fmu.res.board.valid then
    f.updFmu fun m => { m with boards := { m.boards with
      filling := some (ms, b), missed := min 255 (m.boards.missed + 1) } }
  else f.presentBoard ms b

/-- A crossing requests its substitution and is recorded (17 R383). DEDUCED (log entry 129). -/
def Fabric.crossing (f : Fabric) (s : Nat) (c : Nat × Nat × Nat) : Fabric :=
  let slice : Option Repair := if (f.stopU s).spare.slice.isSome then none
    else some { rkind := 3, unit := BitVec.ofNat 10 s, spec := mkWord [(0, c.2.2)] }
  let r := match c.1 with
    | 0 => f.wireRepair s c.2.1 c.2.2
    | 1 => f.retryRepair s c.2.1
    | 2 => f.bankRepair s c.2.1 c.2.2
    | _ => slice
  let kind := match r with
    | some r => r.rkind.toNat
    | none => if c.1 == 1 then 0 else c.1
  let f1 := match r with
    | some r => f.addRepair r
    | none => f.noSpare
  f1.updRes fun x => { x with wear := x.wear.publish [mkWord [(20, kind), (10, s)]] }

/-- CNT_DATA_RECEIVE (R414): the FMU takes a stop's answer; a complete board is entered and its
crossings are acted on. -/
def execCntDataReceive (stop : Nat) (s : State) : Host.Outcome State Fault Refusal :=
  s.run fun f => f.when f.moving fun f =>
    let mine (x : UnitId × Order) : Bool := match x.1, x.2 with
      | .stop t, .gather _ => t == stop
      | _, _ => false
    match takeFirst mine f.fmu.road.answers, f.fmu.boards.gathering with
    | some (_, rest), some ms =>
      let all := f.fmu.boards.gathered.put stop (f.stopU stop).obs.captured
      let f1 := f.updFmu fun m => { m with
        road := { m.road with answers := rest }, boards := { m.boards with gathered := all } }
      if f1.stopIds.all fun t => (all.find? t).isSome then
        let f2 := (f1.updFmu fun m => { m with boards := { m.boards with gathering := none, gathered := [] } }).enterBoard ms all
        f2.forEach (f2.stopIds.flatMap fun t => (f2.stopU t).obs.crossings.map fun c => (t, c)) fun g e => g.crossing e.1 e.2
      else f1
    | _, _ => f

/-- An acknowledge of the presented board; the filling board, if any, is presented at once. -/
def Fabric.boardAck (f : Fabric) : Fabric :=
  let f1 := f.updRes fun r => { r with board := r.board.ack }
  match f1.fmu.boards.filling with
  | some (ms, b) => f1.presentBoard ms b
  | none => f1

/-- BOARD_ACK (R414). -/
def execBoardAck (s : State) : Host.Outcome State Fault Refusal :=
  s.run fun f => f.onBus true Fabric.boardAck

/-- An acknowledge of a freeze releases the frozen view. -/
def Fabric.frzAck (f : Fabric) : Fabric :=
  { f with frz := none }.updRes fun r => { r with frz := r.frz.ack }

/-- FRZ_ACK (R411). -/
def execFrzAck (s : State) : Host.Outcome State Fault Refusal :=
  s.run fun f => f.onBus true Fabric.frzAck

/-! ## Queue samples (06 R144; R409) -/

/-- One sample joins a record. -/
def QSample.add (q : QSample) (depth delay : Nat) : QSample :=
  let d := min 65535 delay
  { q with
    gMaxDelay := max q.gMaxDelay d, gMaxDepth := max q.gMaxDepth depth
    gSumDepth := q.gSumDepth + depth, gSumDelay := q.gSumDelay + d }

/-- Depth in flits and head delay of an input VC. -/
def vcSample (now u : Nat) (q : List QPkt) : Nat × Nat :=
  let held := q.filter fun x => 0 < x.held
  (qOcc q, match held with
    | x :: _ => (now - x.at_) / u
    | [] => 0)

/-- Depth in packets and head delay of an injection queue. -/
def injSample (now u : Nat) (q : List OutPkt) : Nat × Nat :=
  (q.length, match q with
    | o :: _ => (now - o.at_) / u
    | [] => 0)

/-- The records of an NI and the queues they describe: channels and load path of a Core NI, the
domains of a Gateway NI. -/
def sampledQueues (kind : Nat) : List (Nat × Nat) :=
  if kind == 1 then (List.range 17).map fun q => (q, q)
  else if kind == 3 then (List.range 64).map fun d => (d, 32 + d)
  else []

/-- The samples of a stop and of an NI join their records. -/
def Stop.sampled (x : Stop) (now u : Nat) : NMap QSample :=
  (List.range 96).foldl (init := x.obs.samples) fun m v =>
    NMap.upd m v {} fun q => q.add (vcSample now u (x.vq.get v [])).1 (vcSample now u (x.vq.get v [])).2
def Ni.sampled (n : Ni) (kind now u : Nat) : NMap QSample :=
  (sampledQueues kind).foldl (init := n.obs.samples) fun m q =>
    NMap.upd m q.1 {} fun x =>
      x.add (injSample now u (n.inj.queues.get q.2 [])).1 (injSample now u (n.inj.queues.get q.2 [])).2

def Fabric.sampleStop (f : Fabric) (s : Nat) : Fabric :=
  f.updStop s fun x => { x with obs := { x.obs with samples := x.sampled f.time.fcc f.unit } }
def Fabric.sampleNi (f : Fabric) (p : Nat) : Fabric :=
  f.updNi p fun n => { n with obs := { n.obs with samples := n.sampled (f.kind p) f.time.fcc f.unit } }

/-- Every stop and NI samples its queues. -/
def Fabric.sampleAll (f : Fabric) : Fabric :=
  let f1 := f.forEach f.stopIds fun g s => g.sampleStop s
  (f1.forEach f1.niPorts fun g p => g.sampleNi p).updAux fun a => { a with sampled := some f.time.fcc }

/-- The next sampling instant: the present fc, unless it has been sampled. -/
def Fabric.sampleAt (f : Fabric) : Nat :=
  let t := f.time.fcc
  if t % 4096 == 0 && f.taux.sampled != some t then t else (t / 4096 + 1) * 4096

/-- QUEUE_SAMPLE (06 R144). -/
def execQueueSample (s : State) : Host.Outcome State Fault Refusal :=
  s.run fun f => f.when (f.moving && f.due f.sampleAt) fun f => (f.reach f.sampleAt).sampleAll

/-! ## Op samples (R419) -/

/-- The op-sample record of a channel, bits [191:0]. DEDUCED (log entry 135). -/
def opSampleLow (srcid chan : Nat) (c : Chan) : Nat :=
  let oc := match c.queue with
    | e :: _ => opcOf e.op
    | [] => 0
  srcid * 2 ^ 176 + chan * 2 ^ 172 + Chan.stateCode c * 2 ^ 169 + fld (Chan.statWord c) 28 25 * 2 ^ 165 + oc * 2 ^ 159 +
    (Chan.pcWord c).toNat * 2 ^ 96 + c.started.toNat * 2 ^ 80

/-- The sampling interval of a die and the phase of a channel of a core. -/
def samplePeriod (dctl : Word) : Nat := 2 ^ (min 12 (fld dctl 27 24) + 8)
def samplePhase (p chan : Nat) (dctl : Word) : Nat := (16 * coreInDie p + chan) % samplePeriod dctl

/-- A channel that is not idle writes its record. -/
def Fabric.opSample (f : Fabric) (p chan : Nat) : Fabric :=
  let c := f.chan (.tsq p chan)
  let dctl := f.niReg (slicePort (dieOfPort p)) 0x1310
  f.when (hasTrace f.variant && bit dctl 29 && f.kind p == 1 && f.powered p && chan < 16 && Chan.stateCode c != 0) fun f =>
    f.traceNi p (traceRec 4 (f.fccOf (dieOfPort p)) (opSampleLow (3 * 2 ^ 12 + p) chan c))

/-- OP_SAMPLE (R419): the channel's sampling fc arrives. DEDUCED (log entry 148). -/
def execOpSample (port chan : Nat) (s : State) : Host.Outcome State Fault Refusal :=
  s.run fun f =>
    let dctl := f.niReg (slicePort (dieOfPort port)) 0x1310
    let n := samplePeriod dctl
    let ph := samplePhase port chan dctl
    let t := f.time.fcc
    let at_ := f.slotOf (if t % n ≤ ph then t / n * n + ph else (t / n + 1) * n + ph)
    f.when (f.moving && f.due at_) fun f => (f.reach at_).opSample port chan

/-! ## The read pointer of a trace buffer (R420) -/

/-- A write of `RPTR`. -/
def Fabric.traceRptr (f : Fabric) (die : Nat) (w : Word) : Fabric :=
  let r : BitVec 16 := w.extractLsb' 0 16
  let t := (f.die die).trace
  if ((t.wptr - r).toNat ≤ 32768) then f.updDie die fun d => { d with trace := { d.trace with rptr := r } } else f

/-- TRACE_RPTR_WRITE (R420). -/
def execTraceRptrWrite (die : Nat) (word : Word) (s : State) : Host.Outcome State Fault Refusal :=
  s.run fun f => f.onBus (hasTrace f.variant && die < nDies f.variant) fun f => f.traceRptr die word

end Sys2Proof.Machine
end

