-- ==== Sys2Proof/Machine/Publish.lean ====
section
/-! DEFINITION. The Configuration Digest and the Determinism Settings Record, the nondeterminism
counter, and the acknowledges of published results (12 R288-R290; 14 R324-R329; 15 R349; 20 R433). -/

namespace Sys2Proof.Machine

/-! ## The DSR's digests (14 R325) -/

/-- A field whose value 0 acts as another. -/
def actField (w : Word) (hi lo least : Nat) : Nat := max least (fld w hi lo)

/-- The value of a staged register as the unit acts on it. -/
def actWord (off : Nat) (w : Word) : Nat :=
  if off == 0x204 then actField w 15 0 1
  else if off == 0x220 then
    actField w 31 24 1 * 2 ^ 24 + actField w 23 16 1 * 2 ^ 16 + actField w 15 8 1 * 2 ^ 8 + actField w 7 0 1
  else if off == 0x340 then actField w 15 0 1
  else if off == 0x300 then fld w 31 20 * 2 ^ 20 + actField w 19 8 0x21 * 2 ^ 8 + actField w 7 0 1
  else if off == 0x500 then actField w 31 16 1 * 2 ^ 16 + actField w 15 0 1
  else if off == 0x330 || off == 0x334 then actField w 31 24 1 * 2 ^ 24 + actField w 15 0 1
  else if off == 0x900 then actField w 15 0 0x21
  else if off == 0xA00 then fld w 31 24 * 2 ^ 24 + actField w 15 0 1
  else if off == 0x1310 then fld w 31 28 * 2 ^ 28 + min 12 (fld w 27 24) * 2 ^ 24
  else w.toNat

/-- The header record of a DSR message. -/
def Fabric.dsrHead (f : Fabric) : Bytes :=
  record 0x00 0xFFFF f.fmu.turn.tseq.toNat f.epoch.toNat (f.capability fmuPort / 2 ^ 32 % 2 ^ 32)

/-- One record for a register of every NI that has it. -/
def Fabric.niItem (f : Fabric) (tid off : Nat) (val : Word → Nat) : Bytes :=
  (f.niPorts.filter fun p => (niMask f.variant (f.kind p) off).isSome).flatMap fun p => record tid p 0 0 (val (f.niReg p off))

/-- One record for a register of every stop. -/
def Fabric.stopItem (f : Fabric) (tid off : Nat) : Bytes :=
  f.stopIds.flatMap fun s => record tid s 0 0 (actWord off (f.stopReg s off))

def Fabric.seedsMsg (f : Fabric) : Bytes :=
  f.dsrHead ++ f.niItem 0x20 0x204 (actWord 0x204) ++
    (f.stopIds.flatMap fun s => record 0x21 s 0 0 (f.stopReg s 0x204).toNat) ++
    f.niItem 0x22 0x200 fun w => b2n (bit w 1)

/-- A record of the spare map in its place among the others. -/
def insertSpare (r : Nat × Nat × Nat × Word) : List (Nat × Nat × Nat × Word) → List (Nat × Nat × Nat × Word)
  | [] => [r]
  | q :: l =>
    let key (x : Nat × Nat × Nat × Word) : Nat := x.2.1 * 2 ^ 16 + x.1 * 2 ^ 12 + x.2.2.1
    if key q ≤ key r then q :: insertSpare r l else r :: q :: l

def Fabric.spareMsg (f : Fabric) : Bytes :=
  f.dsrHead ++ (f.fmu.spares.foldl (fun l r => insertSpare r l) []).flatMap fun r =>
    record 0x30 r.2.1 (r.1 * 2 ^ 12 + r.2.2.1) 0 r.2.2.2.toNat

/-- DEDUCED (log entry 128). -/
def Fabric.phaseMsg (f : Fabric) : Bytes :=
  f.dsrHead ++
    (f.dieIds.flatMap fun d => record 0x40 d 0 0 (signedBits 32 (f.time.skew.get d 0))) ++
    f.stopIds.flatMap fun s => (List.range 4).flatMap fun i =>
      let r := f.rxOf s i
      if r.pad.isSome then record 0x41 s i 0 r.xMeas else []

/-- DEDUCED (log entry 128). -/
def Fabric.tsetMsg (f : Fabric) : Bytes :=
  f.dsrHead ++ f.stopItem 0x50 0x200 ++ f.stopItem 0x51 0x220 ++ f.stopItem 0x52 0x340 ++ f.stopItem 0x53 0x208 ++
    f.niItem 0x54 0x300 (actWord 0x300) ++ f.niItem 0x55 0x500 (actWord 0x500) ++ f.niItem 0x56 0x330 (actWord 0x330) ++
    f.niItem 0x57 0x334 (actWord 0x334) ++ f.niItem 0x58 0x320 (actWord 0x320) ++ f.niItem 0x59 0x900 (actWord 0x900) ++
    f.niItem 0x5A 0xA00 (actWord 0xA00) ++ f.niItem 0x5B 0x1300 (actWord 0x1300) ++ f.niItem 0x5C 0x1310 (actWord 0x1310)

/-- Bits [383:320] of a digest, low word first. -/
def digestTop (m : Bytes) : Word × Word :=
  let d := sha384 m
  (d.getD 1 0, d.getD 0 0)

/-- Words 7-15 of the DSR for the state in force. DEDUCED (log entry 127). -/
def Fabric.dsrDigests (f : Fabric) : WMap :=
  let s := digestTop f.seedsMsg
  let p := digestTop f.spareMsg
  let h := digestTop f.phaseMsg
  let t := digestTop f.tsetMsg
  let d := f.fmu.res.dig
  [(7, s.1), (8, s.2), (9, p.1), (10, p.2), (11, h.1), (12, h.2), (13, d.word 5), (14, d.word 4), (15, t.2)]

/-- The words of a published digest: cause, FCC, turn and the digest (R290, R292). -/
def DigRun.words (r : DigRun) : List Word :=
  let w := fccWord r.fcc
  [mkWord [(22, r.cause.toNat)], w.extractLsb' 0 32, w.extractLsb' 32 32,
    mkWord [(16, r.tseq.toNat), (0, r.epoch.toNat)]] ++ sha384 r.msg

/-- Whether the link of a bridge, or a realignment, still keeps new digests from being taken.
DEDUCED (log entry 127). -/
def Fabric.dsrReady (f : Fabric) : Bool := f.time.aligned

/-- DIGEST_PUBLISH (12 R288; 14 R326): the running computation is published and the one for the latest
event during it begins; the DSR's digests are taken of the state in force. DEDUCED (log entry 110). -/
def execDigestPublish (s : State) : Host.Outcome State Fault Refusal :=
  s.run fun f => f.when f.live fun f =>
    let refresh (g : Fabric) (of_ : Nat) : Fabric :=
      let ws := g.dsrDigests
      let ok := g.dsrReady && g.fmu.dig.dsrAt ≤ of_
      g.updFmu fun m => { m with dig := { m.dig with ro := ws, dsrValid := ok } }
    match f.fmu.dig.running with
    | some r =>
      refresh (f.updFmu fun m => { m with
        res := { m.res with dig := m.res.dig.publish r.words }
        dig := { m.dig with running := m.dig.waiting, waiting := none } }) r.fcc
    | none => if f.dsrReady && !f.fmu.dig.dsrValid then refresh f f.time.fcc else f

/-- DSR_READ (R324): a read of `FMU_DSR_0` captures all 16 words. -/
def Fabric.dsrWord (f : Fabric) (k : Nat) : Word :=
  let d := f.fmu.dig
  let tiefix := f.niPorts.all fun p => bit (f.niReg p 0x200) 1
  if k == 0 then
    mkWord [(31, b2n d.dsrValid), (30, b2n d.gmis), (24, 1), (20, 1), (16, 1), (12, nDies f.variant),
      (8, if bit (f.fmuReg 0x80C) 31 then 2 else 1), (0, b2n tiefix)]
  else if k < 7 then d.rw.get k (if k == 6 then 0x00010000 else 0)
  else d.ro.get k 0

/-! ## The nondeterminism counter (14 R329) -/

/-- NDET_PUBLISH (R329): the oldest capture is published. -/
def execNdetPublish (s : State) : Host.Outcome State Fault Refusal :=
  s.run fun f => f.when f.moving fun f =>
    match f.fmu.dig.ndetCaps with
    | [] => f
    | (src, ms, ties, arr) :: rest =>
      f.updFmu fun m => { m with
        dig := { m.dig with ndetCaps := rest }
        res := { m.res with ndet := m.res.ndet.publish [mkWord [(23, b2n src), (0, ms % 65536)], ties, arr] } }

/-! ## Acknowledges (00 R14) -/

def Fabric.digestAck (f : Fabric) : Fabric := f.updRes fun r => { r with dig := r.dig.ack }
def Fabric.ndetAck (f : Fabric) : Fabric := f.updRes fun r => { r with ndet := r.ndet.ack }
def Fabric.chkAck (f : Fabric) : Fabric := f.updRes fun r => { r with chk := r.chk.ack }
def Fabric.turnAck (f : Fabric) : Fabric := f.updRes fun r => { r with turn := r.turn.ack }
def Fabric.drainAck (f : Fabric) : Fabric := f.updRes fun r => { r with drain := r.drain.ack }
/-- An acknowledge of `FMU_BUS_ERR` consumes the recorded refusal and its address (20 R433). -/
def Fabric.busErrAck (f : Fabric) : Fabric := { f with bus := { f.bus with errValid := false } }

/-- DIGEST_ACK (12 R290). -/
def execDigestAck (s : State) : Host.Outcome State Fault Refusal := s.run fun f => f.onBus true Fabric.digestAck
/-- NDET_ACK (14 R329). -/
def execNdetAck (s : State) : Host.Outcome State Fault Refusal := s.run fun f => f.onBus true Fabric.ndetAck
/-- CHK_ACK (15 R349). -/
def execChkAck (s : State) : Host.Outcome State Fault Refusal := s.run fun f => f.onBus true Fabric.chkAck
/-- TURN_STAT_ACK (15 R349). -/
def execTurnStatAck (s : State) : Host.Outcome State Fault Refusal := s.run fun f => f.onBus true Fabric.turnAck
/-- DRAIN_STAT_ACK (15 R349). -/
def execDrainStatAck (s : State) : Host.Outcome State Fault Refusal := s.run fun f => f.onBus true Fabric.drainAck
/-- BUS_ERR_ACK (20 R433). -/
def execBusErrAck (s : State) : Host.Outcome State Fault Refusal := s.run fun f => f.onBus true Fabric.busErrAck

end Sys2Proof.Machine
end

