-- ==== Sys2Proof/Machine/Regs.lean ====
section
/-! DEFINITION. What every register reads, block by block (20 R430-R436, R443, and the register tables of
chapters 01-19). A read is a function of the fabric; the few reads that change state are in Bus. -/

namespace Sys2Proof.Machine

/-- Bits [31:0] and [63:32] of a number. -/
def loWord (n : Nat) : Word := BitVec.ofNat 32 n
def hiWord (n : Nat) : Word := BitVec.ofNat 32 (n / 2 ^ 32)

/-- An offset among n registers that lie `step` apart from `base`: its number. -/
def regIdx (off base step n : Nat) : Option Nat :=
  if base ≤ off && (off - base) % step == 0 && (off - base) / step < n then some ((off - base) / step) else none

/-! ## Stops (R435) -/

/-- `STP_ID`. -/
def Fabric.stpId (f : Fabric) (s : Nat) : Word :=
  let br : Nat := ((List.range 4).map fun o => b2n (isBridge f.variant s o) * 2 ^ o).sum
  mkWord [(31, b2n (hasRdu f.variant)), (30, 1), (24, br), (16, dieOfStop s), (8, s % 64), (0, s)]

def stateCode : LinkState → Nat
  | .training => 0 | .up => 1 | .withdrawn => 2 | .joined => 3

/-- `STP_LINK_STAT_o` (05 R127). -/
def Fabric.linkStat (f : Fabric) (s o : Nat) : Word :=
  let t := f.txOf s o
  let r := f.rxOf s (opposite o)
  mkWord [(30, stateCode t.state), (29, b2n (isBridge f.variant s o)), (24, max t.run r.run), (12, t.retries.toNat), (0, r.corr.toNat)]

/-- `STP_PORT_p` (12 R292), `REFUSED` taken from a given record. -/
def StopPort.full (x y : StopPort) : Word := mkWord [(16, StopPort.word x / 2 ^ 16), (0, y.refused.toNat)]

/-- `RDU_STAT` (10 R260). -/
def Fabric.rduStat (f : Fabric) (s : Nat) : Word :=
  let es := (List.range 512).filter fun e => twRole (f.trw s e 1) != 0
  mkWord [(20, (es.map fun e => twNbuf (f.trw s e 1)).sum), (14, (f.stopU s).rdu.bufs.length), (0, es.length)]

/-- `STP_SPARE_MAP` (17 R386), the row errors taken from a given record. -/
def Fabric.spareMap (f : Fabric) (s : Nat) (counted : StopSpare) : Word :=
  let x := (f.stopU s).spare
  let tree := if s % 64 == 28 then
      match f.fmu.spares.find? fun r => r.1 == 6 && r.2.1 == dieOfStop s with
      | some r => 4 + fld r.2.2.2 0 0
      | none => 0
    else 0
  let bank := ((List.range 8).map fun n => b2n (x.bankVc.find? n).isSome * 2 ^ n).sum
  mkWord [(30, b2n x.slice.isSome), (27, x.slice.getD 0), (24, tree), (16, counted.rowErr.toNat), (8, x.rowLast.toNat), (0, bank)]

/-- `STP_WEAR_IN_i` (17 R386). -/
def LinkWear.word (w : LinkWear) : Word := mkWord [(27, w.spares.length), (16, w.worst.1), (0, w.worst.2)]

/-- Words 0-3 of a sample record (19 R409). -/
def QSample.word (q : QSample) (mseq : Word) (w : Nat) : Word := if w == 3 then mseq else q.words.getD w 0

/-- The live counts of an output (19 R415). -/
def Fabric.liveBoard (f : Fabric) (s o : Nat) : BoardCnt :=
  let b := (f.stopU s).obs.board.get o {}
  let w := (f.stopU s).wear.get o {}
  if o < 4 then { b with retries := w.retriesMs, wear := w.crossed } else b

/-- Word of a stop's block at an offset. `o` is the fabric whose observability counters are read: the
frozen view, or `f` itself (19 R411). DEDUCED (log entry 119). `DEFAULT` clears at the first swap:
DESIGN CHOICE (log entry 175). -/
def Fabric.stopWordOf (f o : Fabric) (s off : Nat) : Word :=
  let x := f.stopU s
  let y := o.stopU s
  if (stopMask off).isSome then f.stopReg s off
  else match regIdx off 0x210 4 4 with
  | some k => f.linkStat s k
  | none => match regIdx off 0x240 4 4 with
  | some i => match (f.rxOf s i).pad with
    | some p => mkWord [(31, 1), (0, p.toNat)]
    | none => 0
  | none => match regIdx off 0x320 4 4 with
  | some p => StopPort.full (x.ports.get p {}) (y.ports.get p {})
  | none => match regIdx off 0x410 4 4 with
  | some i => LinkWear.word (y.wear.get i {})
  | none => match regIdx off 0x800 4 384 with
  | some k => QSample.word (y.obs.samples.get (k / 4) {}) y.obs.mseq (k % 4)
  | none => match regIdx off 0xE00 4 32 with
  | some k => (BoardCnt.words (o.liveBoard s (k / 4))).getD (k % 4) 0
  | none =>
    if off == 0 then f.stpId s
    else if off == 0x40 then x.win.sel
    else if off == 0x100 then mkWord [(31, f.epoch.toNat), (30, b2n f.beforeTurn1), (29, b2n x.spare.bypass)]
    else if off == 0x224 then mkWord [(16, x.arb.late.toNat)]
    else if off == 0x260 then mkWord [(16, if hasRdu f.variant then y.mcMerged.toNat else 0), (0, y.leaf.length)]
    else if off == 0x280 && hasRdu f.variant then o.rduStat s
    else if off == 0x284 && hasRdu f.variant then mkWord [(16, y.rdu.merged.toNat), (0, y.rdu.expired.toNat)]
    else if off == 0x288 && hasRdu f.variant then y.rdu.ndet
    else if off == 0x420 then f.spareMap s y.spare
    else if off == 0x424 then mkWord ((List.range 8).map fun n => (4 * n, x.spare.bankVc.get n 0))
    else 0

/-! ## NIs (R436) -/

/-- `NI_XLT_STAT` and `NI_XLT_WD` (08 R208). -/
def Ni.xltStat (n : Ni) : Word :=
  mkWord [(23, (n.ini.tcache.filter fun t => !n.tcFree t).length), (16, min 16 n.walksOut), (0, n.ini.misses.toNat)]
def Ni.xltWd (n : Ni) : Word := mkWord [(26, n.ini.notices.length), (0, n.ini.answered.toNat)]

/-- A counter of an NI wider than 32 bits, by the offset of its `_LO` word: class counts, latency sums
and channel accounting (19 R422). -/
def Ni.wideCtr (n : Ni) (cycles kind off : Nat) : Option Nat :=
  match regIdx off 0x1000 8 24 with
  | some j => some (n.obs.cls.get j 0)
  | none => match regIdx off 0x1240 8 2, regIdx off 0x12C0 8 2 with
  | some j, _ => some (n.obs.lat.get (16 + j) 0)
  | none, some j => if kind == 1 then some (n.obs.lat.get (48 + j) 0) else none
  | none, none =>
    if kind == 1 && 0x1400 ≤ off && off < 0x1C00 && off % 8 == 0 && (off - 0x1400) % 0x80 / 8 < 11 then
      let k := 16 * ((off - 0x1400) / 0x80)
      let i := (off - 0x1400) % 0x80 / 8
      some (if i == 2 then (cycles - n.tsq.accFrom - n.tsq.acc.get k 0 - n.tsq.acc.get (k + 1) 0) % 2 ^ 48
        else n.tsq.acc.get (k + i) 0)
    else none

/-- Remap words in use (17 R387). -/
def Fabric.remaps (f : Fabric) (p : Nat) : Nat :=
  ((List.range 64).filter fun r => bit (f.niEp p f.epoch 0 (768 + r)) 31).length

/-- The registers of a Core NI's channel c: word w of its 16 bytes (07 R180). -/
def Fabric.chanWord (f : Fabric) (p c w : Nat) : Word :=
  let ch := f.chan (.tsq p c)
  match w with
  | 1 => Chan.statWord ch
  | 2 => Chan.pcWord ch
  | 3 => Chan.drejWord ch
  | _ => f.niReg p (0x400 + 16 * c)

/-- Counters of chapter 19 and those others freeze with them (04 R104; 09 R226; 19 R422). -/
def Fabric.niCounter (o : Fabric) (f : Fabric) (p off : Nat) : Word :=
  let k := f.kind p
  let n := o.ni p
  match n.wideCtr o.time.cycles k off with
  | some c => loWord c
  | none => match n.wideCtr o.time.cycles k (off - 4) with
  | some _ => if 4 ≤ off then (f.ni p).obs.loHold.get (off - 4) 0 else 0
  | none => match regIdx off 0x1100 4 16 with
  | some e => n.obs.err.get e 0
  | none => match regIdx off 0x1200 4 16, regIdx off 0x1280 4 16 with
  | some b, _ => loWord (n.obs.lat.get b 0)
  | none, some b => if k == 1 then loWord (n.obs.lat.get (32 + b) 0) else 0
  | none, none => match regIdx off 0x1C00 4 256 with
  | some j => if (sampledQueues k).any fun q => q.1 == j / 4 then QSample.word (n.obs.samples.get (j / 4) {}) n.obs.mseq (j % 4) else 0
  | none =>
    if off == 0x20C then n.inj.ndet
    else if off == 0x700 && (k == 1 || k == 3) then mkWord [(16, n.ini.gmiss.toNat), (0, if k == 3 then n.gw.relayed.toNat else 0)]
    else if off == 0x131C && k == 5 && hasTrace f.variant then (o.die (dieOfPort p)).trace.lost
    else 0

/-- Word of an NI's block at an offset; `o` as for stops. A port that is off keeps its staged registers,
its window and nothing else (20 R427). DEDUCED (log entry 119). -/
def Fabric.niWordOf (f o : Fabric) (p off : Nat) : Word :=
  let k := f.kind p
  let n := f.ni p
  let t := (f.die (dieOfPort p)).trace
  if k == 0 then 0
  else if (niMask f.variant k off).isSome then f.niReg p off
  else if off == 0x40 then n.win.sel
  else if !f.powered p then 0
  else if off == 0 then f.niId p
  else match regIdx off 0x310 4 4 with
  | some d => if d < nDies f.variant then
      mkWord [(20, n.wnd.win.get d 0x400), (8, n.wnd.infl.get d 0), (0, (n.wnd.halves.get d 0).toNat)] else 0
  | none =>
    if k == 1 && 0x400 ≤ off && off < 0x500 && off % 4 == 0 then f.chanWord p ((off - 0x400) / 16) (off % 16 / 4)
    else if k == 1 && 0x2000 ≤ off && off < 0x4000 && off % 4 == 0 then
      (if off % 32 == 0 then ((CtrRec.words ((n.tsq.ctrs.get ((off - 0x2000) / 32) {}).seen f.time.fcc)).getD 0 0) else n.tsq.ctrHold.getD (off % 32 / 4) 0)
    else if off == 0x208 then mkWord [(31, f.epoch.toNat), (30, b2n f.beforeTurn1)]
    else if off == 0x504 && k == 1 then (o.ni p).xltStat
    else if off == 0x508 && k == 1 then (o.ni p).xltWd
    else if off == 0x600 && k == 2 then mkWord [(16, (o.ni p).tgt.poisonRd.toNat), (0, (o.ni p).tgt.partWr.toNat)]
    else if off == 0x800 && (k == 1 || k == 3) then n.pwr.dfence.extractLsb' 0 32
    else if off == 0x804 && (k == 1 || k == 3) then n.pwr.dfence.extractLsb' 32 32
    else if off == 0x910 && k == 2 then mkWord [(23, n.tgt.used), (14, n.tgt.granted), (7, n.tgt.sused)]
    else if off == 0x920 && k == 1 then mkWord [(22, n.ini.pool)]
    else if off == 0xA04 && k == 3 then mkWord [(17, n.gw.egUsed), (2, n.gw.inUsed)]
    else if off == 0xB10 then mkWord [(24, n.pwr.rowErr.toNat), (16, n.pwr.rowLast.toNat), (9, f.remaps p)]
    else if off == 0x1314 && k == 5 && hasTrace f.variant then mkWord [(0, t.wptr.toNat)]
    else if off == 0x1318 && k == 5 && hasTrace f.variant then mkWord [(0, t.rptr.toNat)]
    else Fabric.niCounter o f p off

/-! ## Die slices (R434) -/

def armCode : ArmState → Nat
  | .idle => 0 | .arming => 1 | .armed => 2 | .refused => 3 | .disarmed => 4

/-- `FMU_DS_STAT`. -/
def Fabric.dsStat (f : Fabric) (d : Nat) : Word :=
  let x := f.die d
  let t := f.fmu.turn
  let mine := f.units.filter fun u => UnitId.die u == d
  let quiet := t.quiescing && t.sealed_ && mine.all fun u => f.quietUnit u
  let left := if t.arming then (f.armUnits.filter fun u => UnitId.die u == d && !t.confirmed.contains u).length else 0
  mkWord [(29, armCode x.arm), (28, b2n x.swapped), (27, b2n (f.treeOf d)), (26, b2n quiet), (0, left)]

/-- Word of a die slice's block at an offset. -/
def Fabric.sliceWord (f : Fabric) (d off : Nat) : Word :=
  let x := f.die d
  if off == 0 then mkWord [(28, 5), (16, d), (0, slicePort d)]
  else if off == 4 then f.dsStat d
  else if off == 0x10 then x.resid.get 0 0
  else if off == 0x14 then x.resid.get 1 0
  else if off == 0x20 then (fccWord (f.dieFcc d)).extractLsb' 0 32
  else if off == 0x24 then x.fccHold
  else if off == 0x40 then x.win.sel
  else 0

/-! ## The FMU (R430-R433) -/

/-- `TSTATE` (15 R351). -/
def Fabric.tstate (f : Fabric) : Nat :=
  let t := f.fmu.turn
  if !t.sealed_ then 0 else if t.disarming then 3 else if t.swapped then 0 else if f.allArmed then 2 else 1

def Fabric.variantCode (f : Fabric) : Nat := match f.variant with | .t1 => 1 | .t2 => 2 | .t4 => 4

/-- `FMU_TIME_STAT` (02 R41). -/
def Fabric.timeStat (f : Fabric) : Word :=
  let t := f.time
  mkWord [(31, b2n t.aligned), (30, b2n t.holdover), (29, b2n (t.treeB || t.treeForceB)), (28, b2n t.extValid), (16, t.missRun),
    (0, signedBits 16 (clampAbs 32767 t.phaseErr))]

/-- `FMU_TIME_SKEW_Dd` (02 R45). -/
def SkewReg.word (r : SkewReg) : Word :=
  mkWord [(31, b2n r.valid), (24, r.seq.toNat), (20, r.attempts.toNat), (16, r.skew.toNat), (0, r.rtt.toNat)]

/-- Words 0-5 of a log entry (16 R363); a scrubbed line of no owner shows domain 0x3F (08 R206). -/
def LogEntry.words (e : LogEntry) : List Word :=
  let r := e.rec_
  [mkWord [(16, r.srcid.toNat), (8, r.fkind.toNat), (0, r.fclass.toNat)],
   mkWord [(29, r.sev.toNat), (26, e.tabSev.toNat), (25, b2n e.esc), (24, b2n e.owner.isSome), (16, (e.owner.getD (if r.fkind == 0x28 then 0x3F else 0)).toNat), (0, e.seq.toNat)],
   r.info.extractLsb' 0 32, mkWord [(0, fld r.info 47 32)], r.stamp.extractLsb' 0 32, r.stamp.extractLsb' 32 32]

/-- The entry that the log presents: the oldest, or the last one consumed where none is held. -/
def FaultState.shown (s : FaultState) : Option LogEntry := match s.log with
  | e :: _ => some e
  | [] => s.lastLog

/-- The FCC of the pending or last stop, and whether one is pending (16 R371). -/
def StopCtl.stopFcc (c : StopCtl) : Nat := match c.stopAt with
  | some (a, _) => a
  | none => c.lastAt
def StopCtl.word (c : StopCtl) : Word :=
  let cause := match c.stopAt with
    | some (_, b) => b
    | none => c.cause
  mkWord [(30, b2n c.stopped), (29, b2n c.stopAt.isSome), (28, b2n cause)]

/-- `FMU_GLB_STAT` (R432). -/
def Fabric.glbStat (f : Fabric) : Word :=
  let m := f.fmu
  mkWord [(31, b2n f.time.aligned), (30, b2n f.time.holdover), (29, b2n f.boot.crawl), (28, b2n m.stop.stopped),
    (27, b2n m.stop.stopAt.isSome), (26, b2n f.boot.fail), (22, f.boot.latch.toNat), (19, f.tstate), (18, f.epoch.toNat),
    (17, b2n m.turn.writable), (0, m.turn.tseq.toNat)]

/-- `FMU_BOOT_STAT` (18 R404). -/
def Boot.word (b : Boot) : Word :=
  mkWord [(31, b2n b.done), (30, b2n b.fail), (26, b.latch.toNat), (18, b.reason.toNat), (16, b.die.toNat), (0, b.info.toNat)]

/-- The published results, by the offset of the head register; their companion words follow at the
offsets given (12 R292; 14 R329; 15 R351; 16 R371; 19 R424). -/
def Results.word (r : Results) (off : Nat) : Option Word :=
  match off with
  | 0x400 => some r.dig.head
  | 0x404 => some (r.dig.word 1)
  | 0x408 => some (r.dig.word 2)
  | 0x40C => some (r.dig.word 3)
  | 0x4C0 => some r.ndet.head
  | 0x4C4 => some (r.ndet.word 1)
  | 0x4C8 => some (r.ndet.word 2)
  | 0x500 => some r.chk.head
  | 0x504 => some (r.chk.word 1)
  | 0x514 => some r.turn.head
  | 0x518 => some (r.turn.word 1)
  | 0x51C => some (r.turn.word 2)
  | 0x520 => some r.drain.head
  | 0x524 => some (r.drain.word 1)
  | 0x650 => some r.snap.head
  | 0x900 => some r.frz.head
  | 0x908 => some (r.frz.word 1)
  | 0x90C => some (r.frz.word 2)
  | 0x910 => some r.board.head
  | _ => none

/-- The registers of identification, time and bring-up. DEDUCED (log entry 94). -/
def Fabric.fmuTimeWord (f : Fabric) (off : Nat) : Option Word :=
  let cap := f.capability fmuPort
  let t := f.time
  match off with
  | 0x00 => some (mkWord [(28, 1), (24, f.variantCode), (20, 1), (16, 1), (0, 1)])
  | 0x04 => some (loWord (cap / 2 ^ 32))
  | 0x08 => some (loWord (cap / 2 ^ 96))
  | 0x0C => some (loWord (cap / 2 ^ 128))
  | 0x10 => some (loWord (cap / 2 ^ 160))
  | 0x14 => some (loWord (cap / 2 ^ 192))
  | 0x18 => some (mkWord [(21, nPorts f.variant), (12, nStops f.variant), (7, 4 * nDies f.variant)])
  | 0x20 => some f.glbStat
  | 0x24 => some (mkWord [(31, b2n f.bus.errValid), (24, f.bus.errSeq.toNat), (22, f.bus.errCause.toNat), (21, b2n f.bus.errWr),
      (0, f.bus.errCount.toNat)])
  | 0x28 => some f.bus.errAddr
  | 0x2C => some f.bus.scratch
  | 0x40 => some f.fmu.win.sel
  | 0x300 => some ((fccWord t.fcc).extractLsb' 0 32)
  | 0x304 => some t.fccHold
  | 0x308 => some f.timeStat
  | 0x30C => some (mkWord [(30, b2n t.treeForceB), (16, t.missLimit.toNat), (0, t.phaseWin.toNat)])
  | 0x310 => some (t.ext.extractLsb' 0 32)
  | 0x314 => some (mkWord [(0, fld t.ext 39 32)])
  | 0x318 => some (BitVec.ofInt 32 (max (-2147483648) (min 2147483647 t.offset)))
  | 0x800 => some f.boot.word
  | 0x808 => some (mkWord [(31, b2n f.fmu.prog.ovf), (25, f.fmu.prog.part.length), (16, f.fmu.prog.free), (0, f.fmu.prog.done.toNat)])
  | 0x80C => some (mkWord [(31, fld (f.fmuReg 0x80C) 31 31), (30, b2n f.boot.crawl), (29, b2n f.boot.lastFail)])
  | 0x810 => some (Chan.drejWord f.fmu.chan)
  | _ => none

/-- The registers of isolation, turns, faults, wear and boards. -/
def Fabric.fmuCtlWord (f : Fabric) (off : Nat) : Option Word :=
  let m := f.fmu
  match off with
  | 0x440 => some (f.fmuReg 0x440)
  | 0x448 => some (m.dfence.extractLsb' 0 32)
  | 0x44C => some (m.dfence.extractLsb' 32 32)
  | 0x50C => some (mkWord [(0, m.turn.tseq.toNat)])
  | 0x510 => some (mkWord [(6, m.turn.epoch.toNat), (5, b2n m.turn.writable), (4, b2n m.turn.checked), (0, f.tstate)])
  | 0x600 => some (mkWord [(31, b2n m.fault.auto)])
  | 0x604 => some (mkWord [(31, b2n m.pin.level), (30, b2n f.pinReleased), (0, m.pin.pulses.toNat)])
  | 0x610 => some (mkWord [(31, b2n (!m.fault.log.isEmpty)), (24, m.fault.headSeq.toNat), (13, m.fault.log.length)])
  | 0x62C => some (mkWord [(16, m.fault.lost.toNat), (0, m.fault.displaced.toNat)])
  | 0x640 => some m.stop.word
  | 0x644 => some (loWord m.stop.stopFcc)
  | 0x648 => some (mkWord [(0, m.stop.stopFcc / 2 ^ 32 % 2 ^ 28)])
  | 0x700 => some (mkWord [(10, m.res.wear.head.toNat / 2 ^ 10), (0, m.boards.noSpare.toNat)])
  | 0x904 => some (mkWord [(0, b2n m.boards.live)])
  | _ => none

/-- Word of the FMU's block at an offset. The hold of `FMU_DSR_1-15` reads 0 before the first read of
`FMU_DSR_0`: DESIGN CHOICE (log entry 170). -/
def Fabric.fmuWord (f : Fabric) (off : Nat) : Word :=
  let m := f.fmu
  match m.res.word off, f.fmuTimeWord off, f.fmuCtlWord off with
  | some w, _, _ => w
  | none, some w, _ => w
  | none, none, some w => w
  | none, none, none =>
    match regIdx off 0x320 4 4, regIdx off 0x410 4 12, regIdx off 0x480 4 16, regIdx off 0x614 4 6 with
    | some d, _, _, _ => if d < nDies f.variant then SkewReg.word (f.taux.skews.get d {}) else 0
    | none, some k, _, _ => m.res.dig.word (4 + k)
    | none, none, some k, _ => if k == 0 then f.dsrWord 0 else m.dig.dsrHold.getD k 0
    | none, none, none, some k => match m.fault.shown with
      | some e => (LogEntry.words e).getD k 0
      | none => 0
    | none, none, none, none =>
      match regIdx off 0x680 4 16, regIdx off 0x854 4 5, regIdx off 0x2000 4 512 with
      | some c, _, _ => mkWord [(0, (m.fault.rcnt.get c 0).toNat)]
      | none, some j, _ => f.boot.ms.get (5 + j) 0
      | none, none, some k => if k % 8 == 0 then (CtrRec.words ((m.ctrs.get (k / 8) {}).seen f.time.fcc)).getD 0 0 else m.ctrHold.getD (k % 8) 0
      | none, none, none => 0

end Sys2Proof.Machine
end

