-- ==== Sys2Proof/Machine/Tables.lean ====
section
/-! DEFINITION. What the table-access windows read: tables, snapshots of stops and NIs, the FMU's tables
and the trace buffers (16 R369; 20 R437-R442). -/

namespace Sys2Proof.Machine

/-! ## Tables of stops and NIs (R438) -/

/-- A staged-table word: the copy in force, or the staging copy (R437). -/
def CfgStore.tabWord (c : CfgStore) (stg : Bool) (key : Nat) (reset : Word) : Word :=
  if stg then c.tabsStg.get key (c.tabs.get key reset) else c.tabs.get key reset

/-- 32 groups of a stop's Group Valid Map (09 R209). -/
def Fabric.groupMap (f : Fabric) (s : Nat) (e : BitVec 1) (w : Nat) : Word :=
  mkWord ((List.range 32).map fun b => (b, b2n (f.groupValid s (32 * w + b) e)))

/-- A word of a stop's tables other than the snapshot. -/
def Fabric.stopTabWord (f : Fabric) (s t : Nat) (e : BitVec 1) (stg : Bool) (i : Nat) : Word :=
  let c := (f.stopU s).cfg
  match t with
  | 0 => if i < 256 then f.stopEp s e 0 i else 0
  | 1 => if hasRdu f.variant && i < 4096 then c.tabWord stg (tkey 1 i) 0 else 0
  | 2 => if hasRdu f.variant && i < 4096 then
      (if i % 8 == 0 then c.tabWord stg (tkey 2 i) 0 else f.trw s (i / 8) (i % 8)) else 0
  | 3 => if i < 128 then f.groupMap s e i else 0
  | _ => 0

/-- A word of an NI's tables other than the snapshot. -/
def Fabric.niTabWord (f : Fabric) (p t : Nat) (e : BitVec 1) (stg : Bool) (i : Nat) : Word :=
  let k := f.kind p
  let n := f.ni p
  if t == 2 && (k == 1 || k == 3) && i < 256 && i % 4 == 3 then
    mkWord [(16, n.inj.tc.get (i / 4) 0 / 1024), (0, n.inj.tp.get (i / 4) 0 / 1024)]
  else if t == 3 && !hasRdu f.variant then 0
  else match stTabMask f.variant k t i with
  | some (true, _) => f.niEp p e t i
  | some (false, _) => n.cfg.tabWord stg (tkey t i) (tabReset true (tkey t i))
  | none => 0

/-! ## Snapshots (R440, R441) -/

/-- The fabric as a view shows it. -/
def Fabric.as (f : Fabric) (v : View) : Fabric :=
  { f with time := { f.time with fcc := v.fcc, cycles := v.cycles, skew := v.skew }, fmu := v.fmu, dies := v.dies, stops := v.stops, nis := v.nis }

/-- The 40 check bits of a flit (05 R110). -/
def Flit.check (x : Flit) : Nat :=
  ((List.range 4).map fun q => (fecCheck (x.quarter q)).toNat * 2 ^ (10 * q)).sum

/-- Word w of a flit as a snapshot stores it. DESIGN CHOICE (log entry 121). -/
def flitWord (x : Flit) (vc w : Nat) : Word :=
  if w < 32 then BitVec.ofNat 32 (x.d.toNat / 2 ^ (32 * w))
  else if w < 34 then BitVec.ofNat 32 (x.c.toNat / 2 ^ (32 * (w - 32)))
  else if w < 36 then BitVec.ofNat 32 (x.check / 2 ^ (32 * (w - 34)))
  else if w == 36 then mkWord [(0, 1), (1, vc)]
  else 0

/-- A flit in a buffer: its control field has the type and VC of its packet; what else it held is not
stated (log entry 121). DEDUCED (log entry 122). -/
def bufFlit (now place vc : Nat) (ft : BitVec 3) (d : BitVec 1024) : Flit :=
  { d := d, c := Ctl.toBits { Ctl.ofBits (Config.snapFree 64 now place) with
      ftype := ft, cls := BitVec.ofNat 3 (vc / 2), vc := BitVec.ofNat 1 (vc % 2) } }

/-- The flits of data bits with their types: a head and what follows it. -/
def typedFlits (single : Bool) (head : List (BitVec 1024)) (body : List (BitVec 1024)) (ended : Bool) :
    List (BitVec 3 × BitVec 1024) :=
  head.map (fun d => (if single then ftSingle else ftHead, d)) ++
  (body.zip (List.range body.length)).map fun b => (if ended && b.2 + 1 == body.length then ftTail else ftBody, b.1)

/-- The flits of a packet in a buffer. -/
def QPkt.typed (q : QPkt) : List (BitVec 3 × BitVec 1024) :=
  typedFlits (q.tailIn && q.body.isEmpty) (if q.headHeld then [Header.toBits q.hdr ++ q.pay] else []) q.body q.tailIn

/-- The flits of a whole packet. -/
def Packet.typed (x : Packet) : List (BitVec 3 × BitVec 1024) :=
  typedFlits (Packet.bodyFlits x).isEmpty [Header.toBits x.hdr ++ Packet.headPay x] (Packet.bodyFlits x) true

/-- A flit list read at flit n, word w. -/
def typedWord (now place vc : Nat) (l : List (BitVec 3 × BitVec 1024)) (n w : Nat) : Word :=
  match l[n]? with
  | some x => flitWord (bufFlit now (place + n) vc x.1 x.2) vc w
  | none => 0

/-- The first buffer entry of a VC, by `BUF_PARITY` numbering (17 R375). -/
def entryBase (v : Nat) : Nat := if v < 4 then 4 * v else 16 + 8 * (v - 4)

/-- The VC and the place within it of buffer entry e, when VC `bank` lies in the spare bank.
DEDUCED (log entry 122). -/
def entryPlace (bank : Option Nat) (e : Nat) : Option (Nat × Nat) :=
  if e ≥ 80 then bank.map fun v => (v, e - 80)
  else
    let v := vcOfEntry e
    if bank == some v then none else some (v, e - entryBase v)

/-- Word w of entry e of a buffer whose VC v holds `q v`: flit n of a VC lies in its n-th entry (log
entry 122). -/
def bufferWord (now place : Nat) (bank : Option Nat) (q : Nat → List QPkt) (e w : Nat) : Word :=
  match entryPlace bank e with
  | some (v, n) => if n < vcDepth v then typedWord now place v ((q v).flatMap QPkt.typed) n w else 0
  | none => 0

/-- The output assigned to the head of a VC; what an unassigned one reads is not stated. -/
def outAssigned (now place : Nat) (q : List QPkt) : Nat :=
  match q with
  | x :: _ => match x.route with
    | .go bs => match bs.find? fun b => !b.tailSent with
      | some b => b.out
      | none => (Config.snapFree 4 now place).toNat
    | _ => (Config.snapFree 4 now place).toNat
  | [] => (Config.snapFree 4 now place).toNat

/-- Words of VC v of input i. DESIGN CHOICE (log entry 121). -/
def Fabric.vcSnap (f : Fabric) (s i v w : Nat) : Word :=
  let x := f.stopU s
  let q := x.vq.get (12 * i + v) []
  let opened := !(q.getLast?.map (·.tailIn)).getD true
  let base := if x.spare.bankVc.find? i == some v then 80 else entryBase v
  match w with
  | 0 => mkWord [(0, qOcc q), (8, base), (16, b2n opened), (17, outAssigned f.time.fcc (12 * i + v + 4096 * s) q)]
  | 1 => BitVec.ofNat 32 (vcSample f.time.fcc f.unit q).2
  | _ => 0

/-- Channel state of a link direction, by its sending end: the flits sent and not yet accepted (16 R369). -/
def Fabric.channelOf (f : Fabric) (e : End) : List Flit :=
  let t := f.tx e
  t.retry.drop (ackedCount t.retry (f.rx (f.peer e)).lack)

def flitAt (l : List Flit) (n w : Nat) : Word := match l[n]? with
  | some x => flitWord x x.vcIdx w
  | none => 0

/-- Four bytes of a list as a word. -/
def wordOf (bs : Bytes) (w : Nat) : Word := BitVec.ofNat 32 (ofBytesLE (sliceBytes bs (4 * w) 4))

/-- Words of an RDU's buffer b. -/
def Fabric.rduSnap (f : Fabric) (s b w : Nat) : Word :=
  match (f.stopU s).rdu.bufs.find? b with
  | none => 0
  | some x =>
    let c := f.redCfg s x.entry
    if w < 1024 then wordOf (x.bytes c) w
    else if w < 1040 then wordOf x.anchors (w - 1024)
    else if w == 1040 then mkWord [(31, 1), (16, x.entry), (0, x.seq.toNat)]
    else if w == 1041 then mkWord [(0, x.ncontrib)]
    else 0

/-- The snapshot of a stop at an index, in a fabric as at the instant (R440). -/
def Fabric.stopSnap (f : Fabric) (s i : Nat) : Word :=
  let x := f.stopU s
  let now := f.time.fcc
  if i < 0xB000 then
    let inp := i / 64 / 88
    bufferWord now (2 ^ 20 * s + 128 * inp) (x.spare.bankVc.find? inp) (fun v => x.vq.get (12 * inp + v) []) (i / 64 % 88) (i % 64)
  else if i < 0xB180 then f.vcSnap s ((i - 0xB000) / 4 / 12) ((i - 0xB000) / 4 % 12) (i % 4)
  else if 0xB400 ≤ i && i < 0xB460 then
    let o := (i - 0xB400) / 12
    mkWord [(0, signedBits 8 ((f.txOf s o).creditCount (f.bridge s o) ((i - 0xB400) % 12)))]
  else if 0xB480 ≤ i && i < 0xB4A0 then
    let o := (i - 0xB480) / 4
    match i % 4 with
    | 0 => mkWord [(0, (f.txOf s o).nextSeq.toNat)]
    | 1 => mkWord [(0, (f.rxOf s o).lack.toNat)]
    | 2 => mkWord [(0, (f.channelOf (.st s o)).length)]
    | _ => 0
  else if 0xC000 ≤ i && i < 0xC400 then
    let off := 4 * (i - 0xC000)
    if off == 0x44 then
      let t := fld x.win.sel 31 26
      if t == 4 then Config.snapFree 32 now (2 ^ 20 * s) else
        f.stopTabWord s t (BitVec.ofNat 1 (fld x.win.sel 25 25)) (bit x.win.sel 24) (fld x.win.sel 23 0)
    else f.stopWordOf f s off
  else if 0x10000 ≤ i && i < 0x30000 then
    flitAt (f.channelOf (.st s ((i - 0x10000) / 64 / 256))) ((i - 0x10000) / 64 % 256) (i % 64)
  else if 0x30000 ≤ i && i < 0x38000 then
    flitAt (f.rxOf s ((i - 0x30000) / 64 / 128)).landing ((i - 0x30000) / 64 % 128) (i % 64)
  else if 0x40000 ≤ i && i < 0x50000 then f.rduSnap s ((i - 0x40000) / 2048) ((i - 0x40000) % 2048)
  else 0

/-- Words of entry n of an Outstanding Request Table. DESIGN CHOICE (log entry 121). -/
def Fabric.ortSnap (f : Fabric) (p n w : Nat) : Word :=
  match (f.ni p).ini.ort[n]? with
  | none => 0
  | some o =>
    let now := f.time.fcc
    let ctr : Nat := match o.purpose.op with
      | some (c, e) => match f.entry (seqOf p c) e with
        | some q => opCnt q.op
        | none => (Config.snapFree 8 now (n + 1024 * p)).toNat
      | none => (Config.snapFree 8 now (n + 1024 * p)).toNat
    match w with
    | 0 => mkWord [(20, o.tag.toNat), (0, o.seq.toNat)]
    | 1 => BitVec.ofNat 32 ((now - o.since) / f.unit)
    | 2 => BitVec.ofNat 32 o.local_
    | _ => mkWord [(31, 1), (0, ctr)]

/-- Words of entry t of a Translation Cache. -/
def Ni.tcSnap (n : Ni) (t w : Nat) : Word :=
  match n.ini.tcache[t]? with
  | none => 0
  | some x => match w with
    | 0 => mkWord [(31, 1), (30, b2n x.withdrawing), (29, b2n x.wp), (0, x.dom.toNat)]
    | 1 => BitVec.ofNat 32 x.page.toNat
    | 2 => mkWord [(12, x.frame.toNat), (0, x.page.toNat / 2 ^ 32)]
    | _ => mkWord [(16, n.tcLock x), (0, n.tcUse x)]

/-- The packets of a gateway's buffers: egress requests, ingress requests, ingress answers.
DEDUCED (log entry 132). -/
def Ni.gwBuffer (n : Ni) (b : Nat) : List Packet :=
  match b with
  | 1 => n.gw.egress.map (·.1)
  | 2 => ((List.range 64).flatMap fun d => (n.inj.queues.get (32 + d) []).map (·.pkt)) ++ n.gw.relays.map (·.2)
  | _ => ((n.inj.queues.get 101 []).filter fun o => o.pkt.hdr.cls == 5 && isAnswerKind o.pkt.hdr.kind.toNat).map (·.pkt)

/-- The class and VC 0 of a packet. -/
def Packet.vcIdx (x : Packet) : Nat := 2 * x.hdr.cls.toNat

/-- The flits of packets one behind the other, each with its VC. -/
def packetsWord (now place : Nat) (l : List Packet) (n w : Nat) : Word :=
  let fs := l.flatMap fun x => (Packet.typed x).map fun t => (Packet.vcIdx x, t)
  match fs[n]? with
  | some (vc, t) => flitWord (bufFlit now (place + n) vc t.1 t.2) vc w
  | none => 0

/-- What lies above 0x10_0000: request places of a Target NI, the Answer Pool of T1, a gateway's buffers. -/
def Fabric.niBuffers (f : Fabric) (p i : Nat) : Word :=
  let n := f.ni p
  let now := f.time.fcc
  let place := 2 ^ 40 + 2 ^ 20 * p
  let j := i % 0x100000 / 64
  match f.kind p with
  | 2 => match (n.tgt.places[j / 33]?).map (·.2) with
    | some pl => if i < 0x200000 && j / 33 < 64 then
        typedWord now (place + j) (2 * pl.req.cls.toNat) (typedFlits (pl.flits.length ≤ 1) (pl.flits.take 1) (pl.flits.drop 1) true) (j % 33) (i % 64)
      else 0
    | none => 0
  | 1 => match n.ini.poolFlits[j]? with
    | some d => if i < 0x200000 && f.variant == .t1 then
        flitWord { d := d, c := Config.snapFree 64 now (place + j) } (Config.snapFree 4 now (place + j)).toNat (i % 64) else 0
    | none => 0
  | 3 => packetsWord now (place + 2 ^ 30 * (i / 0x100000)) (n.gwBuffer (i / 0x100000)) j (i % 64)
  | _ => 0

/-- The snapshot of an NI at an index (R441). -/
def Fabric.niSnap (f : Fabric) (p i : Nat) : Word :=
  let n := f.ni p
  let now := f.time.fcc
  let place := 2 ^ 39 + 2 ^ 20 * p
  if f.kind p == 0 then 0
  else if i < 0x1600 then bufferWord now place none (fun v => n.vq.get v []) (i / 64) (i % 64)
  else if 0x2000 ≤ i && i < 0x3000 then
    match (f.chan (.tsq p ((i - 0x2000) / 4 / 64))).queue[(i - 0x2000) / 4 % 64]? with
    | some e => BitVec.ofNat 32 (e.op.toNat / 2 ^ (32 * (i % 4)))
    | none => 0
  else if 0x4000 ≤ i && i < 0x4800 then f.ortSnap p ((i - 0x4000) / 4) (i % 4)
  else if 0x5000 ≤ i && i < 0x5800 then (CtrRec.words (n.tsq.ctrs.get ((i - 0x5000) / 8) {}).toCtrRec).getD (i % 8) 0
  else if 0x6000 ≤ i && i < 0x6800 then
    match n.tsq.slots.find? ((i - 0x6000) / 32) with
    | some d => if i % 32 < 16 then BitVec.ofNat 32 (d.toNat / 2 ^ (32 * (i % 32))) else if i % 32 == 16 then 1 else 0
    | none => 0
  else if 0x7000 ≤ i && i < 0x7400 then n.tcSnap ((i - 0x7000) / 4) (i % 4)
  else if 0x8000 ≤ i && i < 0x8A00 then
    match n.tgt.dat[(i - 0x8000) / 8]? with
    | some d => match d.answer with
      | some a => BitVec.ofNat 32 ((Header.toBits a.hdr).toNat / 2 ^ (32 * (i % 8)))
      | none => Config.snapFree 32 now (place + i)
    | none => 0
  else if 0xB000 ≤ i && i < 0xC000 then
    let off := 4 * (i - 0xB000)
    if off == 0x44 then
      let t := fld n.win.sel 31 26
      if t == 7 then Config.snapFree 32 now place else
        f.niTabWord p t (BitVec.ofNat 1 (fld n.win.sel 25 25)) (bit n.win.sel 24) (fld n.win.sel 23 0)
    else f.niWordOf f p off
  else if 0xC000 ≤ i && i < 0xC00C then mkWord [(0, signedBits 8 (n.tx.creditCount false (i - 0xC000)))]
  else if i == 0xC010 then mkWord [(0, n.tx.nextSeq.toNat)]
  else if i == 0xC011 then mkWord [(0, n.rx.lack.toNat)]
  else if i == 0xC012 then mkWord [(0, (f.channelOf (.ni p)).length)]
  else if 0xD000 ≤ i && i < 0x11000 then flitAt (f.channelOf (.ni p)) ((i - 0xD000) / 64) (i % 64)
  else if 0x100000 ≤ i && i < 0x400000 then f.niBuffers p i
  else 0

/-! ## Windows (R437, R439) -/

/-- The word a window's selector names, in a stop and in an NI. -/
def Fabric.stopSel (f : Fabric) (s : Nat) (sel : Word) : Word :=
  let i := fld sel 23 0
  if fld sel 31 26 == 4 then
    match f.snap with
    | some v => (f.as v).stopSnap s i
    | none => 0
  else f.stopTabWord s (fld sel 31 26) (BitVec.ofNat 1 (fld sel 25 25)) (bit sel 24) i
def Fabric.niSel (f : Fabric) (p : Nat) (sel : Word) : Word :=
  let i := fld sel 23 0
  if fld sel 31 26 == 7 then
    match f.snap with
    | some v => (f.as v).niSnap p i
    | none => 0
  else f.niTabWord p (fld sel 31 26) (BitVec.ofNat 1 (fld sel 25 25)) (bit sel 24) i

/-- A word of the FMU's tables (R442). DESIGN CHOICE (log entry 134). -/
def Fabric.fmuSel (f : Fabric) (sel : Word) : Word :=
  let m := f.fmu
  let i := fld sel 23 0
  match fld sel 31 26 with
  | 0 => if i < 2048 then m.cfg.tabWord (bit sel 24) (tkey 0 i) 0 else 0
  | 1 => if i < 2048 then m.cfg.tabWord (bit sel 24) (tkey 1 i) 0 else 0
  | 2 => if i < 256 then f.sevWord i else 0
  | 3 => if i < 16 then f.clsWord i else 0
  | 4 => if i < 256 then mkWord [(0, (m.fault.counts.get i 0).toNat)] else 0
  | 5 => match m.fault.esc.find? fun e => e.slot == i / 2 with
    | some e => if i % 2 == 0 then mkWord [(31, 1), (28, e.adj), (24, e.cls.toNat), (0, e.srcid.toNat)]
        else mkWord [(16, min 65535 e.unack), (0, min 65535 e.qrun)]
    | none => 0
  | 6 => if i < 8192 then (BoardCnt.words ((NMap.get m.boards.presented (i / 32) []).get (i / 4 % 8) {})).getD (i % 4) 0 else 0
  | 7 => match m.fault.repairs.find? fun r => r.slot == i / 2 with
    | some r => if i % 2 == 0 then mkWord [(31, 1), (30, b2n r.detour), (24, r.rkind.toNat), (10, r.unit.toNat)] else r.spec
    | none => 0
  | _ => 0

/-- A word of a die slice's trace buffer (19 R420). -/
def Fabric.sliceSel (f : Fabric) (d : Nat) (sel : Word) : Word :=
  let i := fld sel 23 0
  if fld sel 31 26 == 0 && hasTrace f.variant && i < 262144 then
    BitVec.ofNat 32 (((f.die d).trace.buf.get (i / 8) 0).toNat / 2 ^ (32 * (i % 8)))
  else 0

/-- The block of a window. -/
inductive Block where
  | fmu
  | slice (d : Nat)
  | stop (s : Nat)
  | ni (p : Nat)
  deriving DecidableEq, Repr

def Fabric.selWord (f : Fabric) (b : Block) (sel : Word) : Word :=
  match b with
  | .fmu => f.fmuSel sel
  | .slice d => f.sliceSel d sel
  | .stop s => f.stopSel s sel
  | .ni p => f.niSel p sel

/-- The multi-word entry that holds a word of a table: its first word and its length. -/
def snapEntry (i : Nat) (ni : Bool) : Nat × Nat :=
  let by_ (base n : Nat) : Nat × Nat := (base + (i - base) / n * n, n)
  if ni then
    if i < 0x1600 || 0x100000 ≤ i then by_ 0 64
    else if i < 0x5000 then by_ 0 4
    else if i < 0x6000 then by_ 0 8
    else if i < 0x7000 then by_ 0 32
    else if i < 0x8000 then by_ 0 4
    else if i < 0xB000 then by_ 0 8
    else if i < 0xD000 then (i, 1)
    else by_ 0 64
  else if i < 0xB000 then by_ 0 64
  else if i < 0xB400 then by_ 0 4
  else if 0xB480 ≤ i && i < 0xC000 then by_ 0 4
  else if i < 0x10000 then (i, 1)
  else if i < 0x40000 then by_ 0 64
  else (i, 1)

def tableEntry (b : Block) (t i : Nat) : Nat × Nat :=
  let by_ (n : Nat) : Nat × Nat := (i / n * n, n)
  match b, t with
  | .stop _, 2 => by_ 8
  | .stop _, 4 => snapEntry i false
  | .ni _, 0 => if i < 768 then by_ 3 else (i, 1)
  | .ni _, 2 => by_ 4
  | .ni _, 6 => by_ 16
  | .ni _, 7 => snapEntry i true
  | .fmu, 0 => by_ 2
  | .fmu, 5 => by_ 2
  | .fmu, 6 => by_ 4
  | .fmu, 7 => by_ 2
  | .slice _, 0 => by_ 8
  | _, _ => (i, 1)

/-- What identifies a captured entry: table, epoch and staging bits, first word. -/
def entryKey (sel : Word) (first : Nat) : Nat := fld sel 31 24 * 2 ^ 24 + first

def withIndex (sel : Word) (i : Nat) : Word := BitVec.ofNat 32 (fld sel 31 24 * 2 ^ 24 + i % 2 ^ 24)

/-- A read of the data register: the word, and the window afterwards (R437, R439). DEDUCED (log entry 117). -/
def Fabric.readWindow (f : Fabric) (b : Block) (w : Window) : Word × Window :=
  let i := fld w.sel 23 0
  let (first, n) := tableEntry b (fld w.sel 31 26) i
  let next := withIndex w.sel (i + 1)
  let key := entryKey w.sel first
  if n == 1 then (f.selWord b w.sel, { w with sel := next })
  else if i == first then
    let ws := (List.range n).map fun j => f.selWord b (withIndex w.sel (first + j))
    (ws.headD 0, { sel := next, heldKey := some key, held := ws })
  else if w.heldKey == some key then (w.held.getD (i - first) 0, { w with sel := next })
  else (f.selWord b w.sel, { w with sel := next })

/-- A write of the data register stores a word of the Severity and Class Tables only (R438). -/
def Fabric.writeTable (f : Fabric) (b : Block) (sel : Word) (d : Word) : Fabric :=
  let i := fld sel 23 0
  match b, fld sel 31 26 with
  | .fmu, 2 => if i < 256 then f.updFmu fun m => { m with fault := { m.fault with
      sevTab := m.fault.sevTab.put i (d &&& 0x37) } } else f
  | .fmu, 3 => if i < 16 then f.updFmu fun m => { m with fault := { m.fault with
      clsTab := m.fault.clsTab.put i (d &&& 0xFFFF) } } else f
  | _, _ => f

end Sys2Proof.Machine
end

