-- ==== Sys2Proof/Machine/Bus.lean ====
section
/-! DEFINITION. The node management bus: the address map, the rules of an access, reads that capture,
and writes (00 R6, R14, R15; 07 R181; 14 R324; 19 R410, R411; 20 R425-R429, R433, R437). -/

namespace Sys2Proof.Machine

/-! ## The address map (R425) -/

/-- The block and offset of an address; none where it is unmapped. -/
def blockOf (a : Nat) : Option (Block × Nat) :=
  if a < 0x10000 then some (.fmu, a)
  else if a < 0x50000 then some (.slice ((a - 0x10000) / 0x10000), a % 0x10000)
  else if 0x100000 ≤ a && a < 0x200000 then some (.stop ((a - 0x100000) / 0x1000), a % 0x1000)
  else if 0x400000 ≤ a && a < 0x1400000 then some (.ni ((a - 0x400000) / 0x4000), a % 0x4000)
  else none

/-- The address of a unit's block. -/
def blockBase : UnitId → Nat
  | .fmu => 0
  | .slice d => 0x10000 + d * 0x10000
  | .stop s => 0x100000 + s * 0x1000
  | .ni p => 0x400000 + p * 0x4000

/-- The unit of a block is present and connected (R6, R23). -/
def Fabric.present (f : Fabric) : Block → Bool
  | .fmu => true
  | .slice d => d < nDies f.variant
  | .stop s => s < nStops f.variant
  | .ni p => p < nPorts f.variant && f.kind p != 0

/-! ## Reads -/

/-- The fabric whose observability counters are read: the frozen view while it is held and `LIVE` = 0
(19 R411). DEDUCED (log entry 119). -/
def Fabric.counted (f : Fabric) : Fabric :=
  match f.frz with
  | some v => if f.fmu.boards.live then f else f.as v
  | none => f

/-- What a register reads. -/
def Fabric.regWord (f : Fabric) (b : Block) (off : Nat) : Word :=
  match b with
  | .fmu => f.fmuWord off
  | .slice d => f.sliceWord d off
  | .stop s => f.stopWordOf f.counted s off
  | .ni p => f.niWordOf f.counted p off

def Fabric.window (f : Fabric) : Block → Window
  | .fmu => f.fmu.win
  | .slice d => (f.die d).win
  | .stop s => (f.stopU s).win
  | .ni p => (f.ni p).win

/-- DEDUCED (log entry 117). -/
def Fabric.setWindow (f : Fabric) (b : Block) (w : Window) : Fabric :=
  match b with
  | .fmu => f.updFmu fun m => { m with win := w }
  | .slice d => f.updDie d fun x => { x with win := w }
  | .stop s => f.updStop s fun x => { x with win := w }
  | .ni p => f.updNi p fun n => { n with win := w }

/-- What a read captures, besides the window (02 R41; 07 R181; 14 R324; 19 R410; 20 R434). -/
def Fabric.capture (f : Fabric) (b : Block) (off : Nat) : Fabric :=
  match b with
  | .fmu =>
    if off == 0x300 then f.updTime fun t => { t with fccHold := hiWord (fccWord t.fcc).toNat }
    else if off == 0x480 then
      let ws := (List.range 16).map f.dsrWord
      f.updFmu fun m => { m with dig := { m.dig with dsrHold := ws } }
    else match regIdx off 0x2000 32 64 with
    | some i => f.updFmu fun m => { m with ctrHold := CtrRec.words ((m.ctrs.get i {}).seen f.time.fcc), ctrHoldAt := some i }
    | none => f
  | .slice d =>
    if off == 0x20 then
      let w := hiWord (fccWord (f.dieFcc d)).toNat
      f.updDie d fun x => { x with fccHold := w }
    else f
  | .stop _ => f
  | .ni p =>
    if !f.powered p then f
    else match (f.counted.ni p).wideCtr f.counted.time.cycles (f.kind p) off with
    | some c => f.updNi p fun n => { n with obs := { n.obs with loHold := n.obs.loHold.put off (hiWord c) } }
    | none => match regIdx off 0x2000 32 256 with
    | some i => if f.kind p == 1 then f.updNi p fun n =>
        { n with tsq := { n.tsq with ctrHold := CtrRec.words ((n.tsq.ctrs.get i {}).seen f.time.fcc), ctrHoldAt := some i } } else f
    | none => f

/-- A read that is performed. -/
def Fabric.readReg (f : Fabric) (b : Block) (off : Nat) : Fabric :=
  if off == 0x44 then
    let (d, w) := f.readWindow b (f.window b)
    (f.setWindow b w).busReply d false
  else (f.capture b off).busReply (f.regWord b off) false

/-! ## Writes -/

/-- A write to the FMU's block (R14). -/
def Fabric.writeFmu (f : Fabric) (off : Nat) (w : Word) : Fabric :=
  match regIdx off 0x320 4 4 with
  | some d => f.skewAck d
  | none => match off with
  | 0x24 => f.busErrAck
  | 0x2C => { f with bus := { f.bus with scratch := w } }
  | 0x30C =>
    let g := f.updTime fun t => { t with
      treeForceB := bit w 30, missLimit := w.extractLsb' 16 8, phaseWin := w.extractLsb' 0 8 }
    if bit w 31 then g.realign else g
  | 0x400 => f.digestAck
  | 0x484 => f.updFmu fun m => { m with dig := { m.dig with rw := m.dig.rw.put 1 w, gmis := false } }
  | 0x488 => f.updFmu fun m => { m with dig := { m.dig with rw := m.dig.rw.put 2 w } }
  | 0x48C => f.updFmu fun m => { m with dig := { m.dig with rw := m.dig.rw.put 3 w } }
  | 0x490 => f.updFmu fun m => { m with dig := { m.dig with rw := m.dig.rw.put 4 w } }
  | 0x494 => f.updFmu fun m => { m with dig := { m.dig with rw := m.dig.rw.put 5 w } }
  | 0x498 => f.updFmu fun m => { m with dig := { m.dig with rw := m.dig.rw.put 6 (w &&& 0xFFFF0000) } }
  | 0x4C0 => f.ndetAck
  | 0x500 => f.chkAck
  | 0x50C => if bit w 31 then f.turnCancel else f
  | 0x514 => f.turnAck
  | 0x520 => f.drainAck
  | 0x600 => f.updFmu fun m => { m with fault := { m.fault with auto := bit w 31 } }
  | 0x604 => f.updFmu fun m => { m with pin := { m.pin with level := bit w 31 } }
  | 0x610 => f.flogAck
  | 0x640 => if bit w 31 then f.resumeWrite else f
  | 0x650 => f.snapAck
  | 0x660 => f.force .fmu w
  | 0x700 => f.wearAck
  | 0x804 => f.progWrite w
  | 0x808 => f.updFmu fun m => { m with prog := { m.prog with ovf := m.prog.ovf && !bit w 31 } }
  | 0x900 => f.frzAck
  | 0x904 => f.updFmu fun m => { m with boards := { m.boards with live := bit w 0 } }
  | 0x910 => f.boardAck
  | _ => f

/-- A write that is performed (R14, R427): fields of type RO and ST, and offsets that hold nothing,
ignore it. DEDUCED (log entry 118). -/
def Fabric.writeReg (f : Fabric) (b : Block) (off : Nat) (w : Word) : Fabric :=
  if off == 0x40 then f.setWindow b { f.window b with sel := w }
  else if off == 0x44 then
    let x := f.window b
    (f.writeTable b x.sel w).setWindow b { x with sel := withIndex x.sel (fld x.sel 23 0 + 1) }
  else match b with
  | .fmu => f.writeFmu off w
  | .slice _ => f
  | .stop s => if off == 0x380 then f.force (.stop s) w else f
  | .ni p =>
    if !f.powered p then f
    else if off == 0xB00 then f.force (.ni p) w
    else if off == 0x1318 && f.kind p == 5 && hasTrace f.variant then f.traceRptr (dieOfPort p) w
    else f

/-! ## An access (R427, R433) -/

/-- A refusal is recorded: cause 0 unmapped, 1 misaligned, 2 timeout. -/
def Fabric.busRefuse (f : Fabric) (cause addr : Nat) (wr : Bool) : Fabric :=
  let b := f.bus
  { f with bus := { b with
    rdata := 0, err := true, errValid := true, errSeq := b.errSeq + 1, errCause := BitVec.ofNat 2 cause
    errWr := wr, errCount := b.errCount + 1, errAddr := BitVec.ofNat 32 addr } }

/-- An access to an address; `w` is none for a read. -/
def Fabric.busAccess (f : Fabric) (addr : Nat) (w : Option Word) : Fabric :=
  if !f.live then f.busReply 0 true
  else if addr % 4 != 0 then f.busRefuse 1 addr w.isSome
  else match blockOf addr with
  | none => f.busRefuse 0 addr w.isSome
  | some (b, off) =>
    if !f.present b then f.busReply 0 false
    else match w with
    | none => f.readReg b off
    | some d => (f.writeReg b off d).busReply 0 false

/-- The address is that of a counter's `_LO` word, or of a slice's `FMU_DS_FCC_LO`. -/
def Fabric.isLo (f : Fabric) (addr : Nat) : Bool :=
  match blockOf addr with
  | some (.ni p, off) => ((f.ni p).wideCtr 0 (f.kind p) off).isSome
  | some (.slice _, off) => off == 0x20
  | _ => false

/-- The address is that of the first word of a completion counter record. -/
def isRecord (addr : Nat) : Bool :=
  match blockOf addr with
  | some (.ni _, off) => (regIdx off 0x2000 32 256).isSome
  | some (.fmu, off) => (regIdx off 0x2000 32 64).isSome
  | _ => false

/-- A unit whose block lies in the address map. -/
def mappedUnit : UnitId → Bool
  | .fmu => true
  | .slice d => d < 4
  | .stop s => s < 256
  | .ni p => p < 1024

/-- TBL_DATA_ACCESS (R437). -/
def execTblDataAccess (unit : UnitId) (wdata : Option Word) (s : State) : Host.Outcome State Fault Refusal :=
  s.run fun f => f.when (mappedUnit unit) fun f => f.busAccess (blockBase unit + 0x44) wdata

/-- COUNTER_LO_READ (19 R410). -/
def execCounterLoRead (addr : Nat) (s : State) : Host.Outcome State Fault Refusal :=
  s.run fun f => f.when (f.isLo addr) fun f => f.busAccess addr none

/-- COUNTER_RECORD_READ (07 R181; 18 R392). -/
def execCounterRecordRead (addr : Nat) (s : State) : Host.Outcome State Fault Refusal :=
  s.run fun f => f.when (isRecord addr) fun f => f.busAccess addr none

/-- DSR_READ (14 R324). -/
def execDsrRead (s : State) : Host.Outcome State Fault Refusal :=
  s.run fun f => f.busAccess 0x480 none

/-- REGISTER_WRITE (00 R14; R427). -/
def execRegisterWrite (addr : Nat) (word : Word) (s : State) : Host.Outcome State Fault Refusal :=
  s.run fun f => f.busAccess addr (some word)

/-- BUS_ACCESS_TIMEOUT (R427): a stop or NI block access is not answered in time. -/
def execBusAccessTimeout (addr : Nat) (wr : Bool) (s : State) : Host.Outcome State Fault Refusal :=
  s.run fun f => match blockOf addr with
    | some (.stop _, _) => f.when (f.live && addr % 4 == 0) fun f => f.busRefuse 2 addr wr
    | some (.ni _, _) => f.when (f.live && addr % 4 == 0) fun f => f.busRefuse 2 addr wr
    | _ => f

end Sys2Proof.Machine
end

