-- ==== Sys2Proof/Machine/Dispatch.lean ====
section
/-! DEFINITION. One arm per command: a direct call of its meaning. -/

namespace Sys2Proof.Machine

def exec (i : Instr) (s : State) : Host.Outcome State Fault Refusal :=
  match i with
  | .fipIssue port op => Sys2Proof.Machine.execFipIssue port op s
  | .programFetch port chan op => Sys2Proof.Machine.execProgramFetch port chan op s
  | .nop who => Sys2Proof.Machine.execNop who s
  | .lddTensor port chan => Sys2Proof.Machine.execLddTensor port chan s
  | .lddSlotWrite port chan desc => Sys2Proof.Machine.execLddSlotWrite port chan desc s
  | .lddProgram port chan => Sys2Proof.Machine.execLddProgram port chan s
  | .move port chan data => Sys2Proof.Machine.execMove port chan data s
  | .movex port chan data => Sys2Proof.Machine.execMovex port chan data s
  | .mcast port chan data => Sys2Proof.Machine.execMcast port chan data s
  | .reduce port chan data anchors => Sys2Proof.Machine.execReduce port chan data anchors s
  | .treeSetUp port chan => Sys2Proof.Machine.execTreeSetUp port chan s
  | .treeJoin port chan => Sys2Proof.Machine.execTreeJoin port chan s
  | .treeLeave port chan => Sys2Proof.Machine.execTreeLeave port chan s
  | .signal who => Sys2Proof.Machine.execSignal who s
  | .wait who => Sys2Proof.Machine.execWait who s
  | .waitTimeout who => Sys2Proof.Machine.execWaitTimeout who s
  | .fence who => Sys2Proof.Machine.execFence who s
  | .abort port => Sys2Proof.Machine.execAbort port s
  | .stamp port chan => Sys2Proof.Machine.execStamp port chan s
  | .probe port chan => Sys2Proof.Machine.execProbe port chan s
  | .probeWriteVisible port chan => Sys2Proof.Machine.execProbeWriteVisible port chan s
  | .pretranslateWindow port chan => Sys2Proof.Machine.execPretranslateWindow port chan s
  | .walkAnswer port ans => Sys2Proof.Machine.execWalkAnswer port ans s
  | .niInject port => Sys2Proof.Machine.execNiInject port s
  | .stopHeadArrival stop input vc => Sys2Proof.Machine.execStopHeadArrival stop input vc s
  | .leafSlotExamine stop input vc => Sys2Proof.Machine.execLeafSlotExamine stop input vc s
  | .leafReport port => Sys2Proof.Machine.execLeafReport port s
  | .flitReceive at_ noise => Sys2Proof.Machine.execFlitReceive at_ noise s
  | .ackTimerExpiry at_ => Sys2Proof.Machine.execAckTimerExpiry at_ s
  | .linkSilenceTimeout at_ => Sys2Proof.Machine.execLinkSilenceTimeout at_ s
  | .answerConsume port => Sys2Proof.Machine.execAnswerConsume port s
  | .initiatorTimeout port red tag seq => Sys2Proof.Machine.execInitiatorTimeout port red tag seq s
  | .sigAdd port => Sys2Proof.Machine.execSigAdd port s
  | .targetRequest port => Sys2Proof.Machine.execTargetRequest port s
  | .tgtLineResponse port id stat data => Sys2Proof.Machine.execTgtLineResponse port id stat data s
  | .scrubReport port kind line => Sys2Proof.Machine.execScrubReport port kind line s
  | .datAnswer port => Sys2Proof.Machine.execDatAnswer port s
  | .localMemRequest port data => Sys2Proof.Machine.execLocalMemRequest port data s
  | .withdrawalNotice port notice => Sys2Proof.Machine.execWithdrawalNotice port notice s
  | .noticeRelease port => Sys2Proof.Machine.execNoticeRelease port s
  | .directoryRequest port => Sys2Proof.Machine.execDirectoryRequest port s
  | .digestRead req => Sys2Proof.Machine.execDigestRead req s
  | .treeRequest die => Sys2Proof.Machine.execTreeRequest die s
  | .treeRduConfirm die stop => Sys2Proof.Machine.execTreeRduConfirm die stop s
  | .treeFreezeApply die => Sys2Proof.Machine.execTreeFreezeApply die s
  | .rduContrib stop input vc => Sys2Proof.Machine.execRduContrib stop input vc s
  | .rootResultReport port => Sys2Proof.Machine.execRootResultReport port s
  | .rdDoneConsume port => Sys2Proof.Machine.execRdDoneConsume port s
  | .rduHoldTimeout stop buf => Sys2Proof.Machine.execRduHoldTimeout stop buf s
  | .gwEgress port => Sys2Proof.Machine.execGwEgress port s
  | .gwTransportHandoff port => Sys2Proof.Machine.execGwTransportHandoff port s
  | .gwIngress port pkt => Sys2Proof.Machine.execGwIngress port pkt s
  | .gwRdDoneFanout port => Sys2Proof.Machine.execGwRdDoneFanout port s
  | .transportFailure port req => Sys2Proof.Machine.execTransportFailure port req s
  | .xcreditReceive port ext => Sys2Proof.Machine.execXcreditReceive port ext s
  | .tokenIdleReturn port target => Sys2Proof.Machine.execTokenIdleReturn port target s
  | .sinkStall stop output => Sys2Proof.Machine.execSinkStall stop output s
  | .tgtStall port => Sys2Proof.Machine.execTgtStall port s
  | .gwStall port => Sys2Proof.Machine.execGwStall port s
  | .mgtOpReceive unit => Sys2Proof.Machine.execMgtOpReceive unit s
  | .mgtRspReceive unit => Sys2Proof.Machine.execMgtRspReceive unit s
  | .faultSend unit => Sys2Proof.Machine.execFaultSend unit s
  | .faultEvaluate => Sys2Proof.Machine.execFaultEvaluate s
  | .fabErrPulseEnd => Sys2Proof.Machine.execFabErrPulseEnd s
  | .cntGatherReceive stop => Sys2Proof.Machine.execCntGatherReceive stop s
  | .cntDataReceive stop => Sys2Proof.Machine.execCntDataReceive stop s
  | .stage => Sys2Proof.Machine.execStage s
  | .check => Sys2Proof.Machine.execCheck s
  | .turn => Sys2Proof.Machine.execTurn s
  | .unitArm unit good x => Sys2Proof.Machine.execUnitArm unit good x s
  | .armingDeadline => Sys2Proof.Machine.execArmingDeadline s
  | .unitDisarm unit => Sys2Proof.Machine.execUnitDisarm unit s
  | .disarmDeadline => Sys2Proof.Machine.execDisarmDeadline s
  | .turnCancel => Sys2Proof.Machine.execTurnCancel s
  | .turnSwap => Sys2Proof.Machine.execTurnSwap s
  | .turnOutcome => Sys2Proof.Machine.execTurnOutcome s
  | .drain => Sys2Proof.Machine.execDrain s
  | .drainSum => Sys2Proof.Machine.execDrainSum s
  | .drainTimeout => Sys2Proof.Machine.execDrainTimeout s
  | .portGate port => Sys2Proof.Machine.execPortGate port s
  | .fencePort => Sys2Proof.Machine.execFencePort s
  | .openPort => Sys2Proof.Machine.execOpenPort s
  | .fenceDomain => Sys2Proof.Machine.execFenceDomain s
  | .openDomain => Sys2Proof.Machine.execOpenDomain s
  | .fencepComplete => Sys2Proof.Machine.execFencepComplete s
  | .snapFreeze => Sys2Proof.Machine.execSnapFreeze s
  | .snapStop => Sys2Proof.Machine.execSnapStop s
  | .counterFreeze => Sys2Proof.Machine.execCounterFreeze s
  | .globalStop => Sys2Proof.Machine.execGlobalStop s
  | .snapshotPublish => Sys2Proof.Machine.execSnapshotPublish s
  | .resume => Sys2Proof.Machine.execResume s
  | .spareWire => Sys2Proof.Machine.execSpareWire s
  | .spareRetrain => Sys2Proof.Machine.execSpareRetrain s
  | .retrainComplete stop output good failed x => Sys2Proof.Machine.execRetrainComplete stop output good failed x s
  | .spareBank => Sys2Proof.Machine.execSpareBank s
  | .spareSlice => Sys2Proof.Machine.execSpareSlice s
  | .spareBypass => Sys2Proof.Machine.execSpareBypass s
  | .spareRestore => Sys2Proof.Machine.execSpareRestore s
  | .spareGateway => Sys2Proof.Machine.execSpareGateway s
  | .spareTree => Sys2Proof.Machine.execSpareTree s
  | .powerOn => Sys2Proof.Machine.execPowerOn s
  | .powerOff => Sys2Proof.Machine.execPowerOff s
  | .portWake port good => Sys2Proof.Machine.execPortWake port good s
  | .autoRepair => Sys2Proof.Machine.execAutoRepair s
  | .fmuProgWrite word => Sys2Proof.Machine.execFmuProgWrite word s
  | .milestoneBoundary => Sys2Proof.Machine.execMilestoneBoundary s
  | .msTick phase => Sys2Proof.Machine.execMsTick phase s
  | .countFrame bits late => Sys2Proof.Machine.execCountFrame bits late s
  | .treeMarker die a b => Sys2Proof.Machine.execTreeMarker die a b s
  | .alignStart => Sys2Proof.Machine.execAlignStart s
  | .alignEcho die a b c => Sys2Proof.Machine.execAlignEcho die a b c s
  | .alignEchoTimeout die => Sys2Proof.Machine.execAlignEchoTimeout die s
  | .timestampExchange die t1 t2 t3 t4 => Sys2Proof.Machine.execTimestampExchange die t1 t2 t3 t4 s
  | .alignFrameTimeout => Sys2Proof.Machine.execAlignFrameTimeout s
  | .realign => Sys2Proof.Machine.execRealign s
  | .linkTrainPhaseEnd stop output failed good x => Sys2Proof.Machine.execLinkTrainPhaseEnd stop output failed good x s
  | .fabPgChange die high => Sys2Proof.Machine.execFabPgChange die high s
  | .fabRstAssert => Sys2Proof.Machine.execFabRstAssert s
  | .fabRstRelease => Sys2Proof.Machine.execFabRstRelease s
  | .pllLock die => Sys2Proof.Machine.execPllLock die s
  | .pllLockTimeout die => Sys2Proof.Machine.execPllLockTimeout die s
  | .pllUnlock die => Sys2Proof.Machine.execPllUnlock die s
  | .meterRefill => Sys2Proof.Machine.execMeterRefill s
  | .queueSample => Sys2Proof.Machine.execQueueSample s
  | .opSample port chan => Sys2Proof.Machine.execOpSample port chan s
  | .digestPublish => Sys2Proof.Machine.execDigestPublish s
  | .ndetPublish => Sys2Proof.Machine.execNdetPublish s
  | .faultForce unit word => Sys2Proof.Machine.execFaultForce unit word s
  | .skewAck die => Sys2Proof.Machine.execSkewAck die s
  | .digestAck => Sys2Proof.Machine.execDigestAck s
  | .ndetAck => Sys2Proof.Machine.execNdetAck s
  | .chkAck => Sys2Proof.Machine.execChkAck s
  | .turnStatAck => Sys2Proof.Machine.execTurnStatAck s
  | .drainStatAck => Sys2Proof.Machine.execDrainStatAck s
  | .flogAck => Sys2Proof.Machine.execFlogAck s
  | .snapStatAck => Sys2Proof.Machine.execSnapStatAck s
  | .wearLastAck => Sys2Proof.Machine.execWearLastAck s
  | .frzAck => Sys2Proof.Machine.execFrzAck s
  | .boardAck => Sys2Proof.Machine.execBoardAck s
  | .busErrAck => Sys2Proof.Machine.execBusErrAck s
  | .traceRptrWrite die word => Sys2Proof.Machine.execTraceRptrWrite die word s
  | .tblDataAccess unit wdata => Sys2Proof.Machine.execTblDataAccess unit wdata s
  | .fccLoRead => Sys2Proof.Machine.execFccLoRead s
  | .counterLoRead addr => Sys2Proof.Machine.execCounterLoRead addr s
  | .counterRecordRead addr => Sys2Proof.Machine.execCounterRecordRead addr s
  | .dsrRead => Sys2Proof.Machine.execDsrRead s
  | .registerWrite addr word => Sys2Proof.Machine.execRegisterWrite addr word s
  | .busAccessTimeout addr wr => Sys2Proof.Machine.execBusAccessTimeout addr wr s
  | .loadPathRequest port engine addr bytes wdata => Sys2Proof.Machine.execLoadPathRequest port engine addr bytes wdata s
  | .lineRequestTaken port => Sys2Proof.Machine.execLineRequestTaken port s
  | .answerPoolRelease port => Sys2Proof.Machine.execAnswerPoolRelease port s
  | .treeDescriptorLoad port chan desc => Sys2Proof.Machine.execTreeDescriptorLoad port chan desc s
  | .tagHoldExpiry port tag => Sys2Proof.Machine.execTagHoldExpiry port tag s

end Sys2Proof.Machine
end

