-- ==== Sys2Proof/Machine/Tick.lean ====
section
/-! DEFINITION. One fabric cycle in which no command is taken: the allocator of every stop, what stops
and NIs put on their links, landing buffers, trace paths, waiting ops and the instants that fall due
(05 R104, R107, R108, R113, R119, R122; 06 R129-R132, R136, R140, R144; 07 R174; 09 R216; 13 R314; 19
R413, R418-R420; log entries 2 and 123-126). -/

namespace Sys2Proof.Machine

/-! ## One cycle of a stop -/

/-- One cycle of a stop's allocator, and what leaves its buffers. -/
def Fabric.allocate (f : Fabric) (s : Nat) : Fabric :=
  -- nothing is granted in the fc of a slice substitution (17 R376)
  let rs := if (f.stopU s).spare.sliceAt == some f.time.fcc then [] else f.requests s
  let f1 := (List.range 8).foldl (fun g o => g.serveOutput s o (rs.filter fun r => r.out == o)) f
  (f1.reap s).rduPump s

/-! ## Landing buffers (R119; 06 R137) -/

/-- The first flit of a landing buffer that its VC has room for: `SCH` ahead of the others.
DEDUCED (log entry 125). -/
def Fabric.landNext (f : Fabric) (s i : Nat) : Option (Flit × List Flit) :=
  let room (x : Flit) : Bool := qOcc (f.stopQ s (12 * i + x.vcIdx)) < vcDepth x.vcIdx
  let r := f.rxOf s i
  -- a scheduled flit is ready once it has passed the retiming line
  let ready (x : Flit) : Bool := x.at_ + ((r.pad.map (·.toNat)).getD 0) * f.unit ≤ f.time.fcc
  match takeFirst (fun x => x.vcIdx / 2 == 1 && ready x && room x) r.landing with
  | some r => some r
  | none => takeFirst (fun x => x.vcIdx / 2 != 1 && room x) r.landing

/-- One flit of a landing buffer enters its input; its place is owed to the sender. -/
def Fabric.land (f : Fabric) (s i : Nat) : Fabric :=
  match f.landNext s i with
  | none => f
  | some (x, rest) =>
    let e : End := .st s (inputOf i)
    ((f.updRx e fun r => { r with landing := rest }).owe e x.vcIdx 1).enterVc e x

/-- One cycle of a stop. -/
def Fabric.stopCycle (f : Fabric) (s : Nat) : Fabric :=
  if (f.stopU s).spare.bypass then f
  else ((List.range 4).foldl (fun g i => g.land s i) f).allocate s

/-! ## One cycle of an NI (06 R132; 07 R174; 19 R419) -/

/-- The next flit of a packet whose head has been injected, or a flit to be sent again. -/
def Fabric.niSend (f : Fabric) (p : Nat) : Fabric :=
  let t := (f.ni p).tx
  if t.resend > 0 then f.sendAgain (.ni p)
  else match (f.ni p).inj.sending with
  | [] => f
  | (ft, vc, d) :: rest =>
    if f.canSend (.ni p) vc && t.retry.length < retryLimit false then
      (f.sendNew (.ni p) ft vc d 0).updNi p fun n => { n with inj := { n.inj with sending := rest } }
    else f

/-- The units behind translation and security ports take what is delivered to them (01 R21).
DESIGN CHOICE (log entry 126). -/
def Fabric.attachedTakes (f : Fabric) (p : Nat) : Fabric :=
  f.when (f.kind p == 6 || f.kind p == 7) fun f => f.niTake p (fun _ => true) fun f _ _ => f

/-- A complete packet of a kind that some command takes at an NI. -/
def Fabric.serves (f : Fabric) (p : Nat) (q : QPkt) : Bool :=
  let k := q.hdr.kind.toNat
  let kind := f.kind p
  let slice := p == slicePort (dieOfPort p)
  kind == 6 || kind == 7 || k == 4 || k == 14 || f.takesAnswer p q.hdr || (p == fmuPort && (k == 0 || k == 11)) ||
  ((k == 0 || k == 1) && (kind == 1 || kind == 2 || kind == 4 || (slice && hasRdu f.variant))) ||
  (k == 5 && q.hdr.cls == 4 && (kind == 1 || kind == 2)) ||
  (k == 8 && (kind == 1 || (kind == 2 && f.rootCopy p q) || (kind == 3 && q.hdr.cls == 3))) ||
  (kind == 3 && q.hdr.cls == 5)

/-- A packet of a kind the NI does not serve fails step 8 or 9 of R81: it is answered `MALFORMED`, or
discarded (03 R69, R81). DEDUCED (log entry 169). -/
def Fabric.strayStep (f : Fabric) (p : Nat) : Fabric :=
  f.niTake p (fun q => !f.serves p q) fun f x _ =>
    if isAnswerKind x.hdr.kind.toNat then f.raiseNi p .rspDrop (infoDrop x.hdr .malformed)
    else f.niRefuse p x.hdr .malformed

/-- Waiting WAITs of a Core NI compare. DESIGN CHOICE (log entry 126). -/
def Fabric.compareWaits (f : Fabric) (p : Nat) : Fabric :=
  (f.ni p).tsq.chans.foldl (fun g c => g.compareWait (.tsq p c.1)) f

/-- Channels whose sampling cycle this is. DEDUCED (log entry 148). -/
def Fabric.opSamples (f : Fabric) (p : Nat) : Fabric :=
  let dctl := f.niReg (slicePort (dieOfPort p)) 0x1310
  (f.ni p).tsq.chans.foldl (fun g c =>
    let n := samplePeriod dctl
    g.when ((f.time.fcc + n - samplePhase p c.1 dctl) % n < f.unit) fun g => g.opSample p c.1) f

def Fabric.niCycle (f : Fabric) (p : Nat) : Fabric :=
  if f.kind p == 0 || !f.powered p then f
  else
    let f1 := ((f.ni p).vq.map (·.1)).foldl (fun g v => g.niSink p v) f
    (((((f1.niSend p).attachedTakes p).strayStep p).copyStep p).compareWaits p).opSamples p

/-! ## Trace paths (19 R418, R420) -/

/-- One record of a die moves from a unit's queue to the buffer: stops in order, then NIs.
DESIGN CHOICE (log entry 126). -/
def Fabric.tracePath (f : Fabric) (d : Nat) : Fabric :=
  let put (f : Fabric) (r : BitVec 256) : Fabric :=
    f.updDie d fun x => { x with trace := x.trace.put r (f.fccOf d) }
  match List.find? (fun x : Nat × Stop => dieOfStop x.1 == d && !x.2.obs.traceQ.isEmpty) f.stops with
  | some (s, x) => (put f (x.obs.traceQ.headD 0)).updStop s fun y =>
      { y with obs := { y.obs with traceQ := y.obs.traceQ.drop 1 } }
  | none => match List.find? (fun x : Nat × Ni => dieOfPort x.1 == d && !x.2.obs.traceQ.isEmpty) f.nis with
    | some (p, n) => (put f (n.obs.traceQ.headD 0)).updNi p fun m =>
        { m with obs := { m.obs with traceQ := m.obs.traceQ.drop 1 } }
    | none => f

/-! ## The cycle -/

/-- The periodic events of a cycle that has come: meter refills and queue samples. -/
def Fabric.periodic (f : Fabric) : Fabric :=
  let t := f.time.fcc
  let u := f.unit
  let f1 := if t % 512 < 256 + u && t % 512 ≥ 256 then (f.nis.map (·.1)).foldl (fun g p => g.refill p) f else f
  if t % 4096 < u && f1.taux.sampled != some t then f1.sampleAll else f1

/-- The data plane's part of a cycle. -/
def Fabric.dataCycle (f : Fabric) : Fabric :=
  let f1 := (f.stops.map (·.1)).foldl (fun g s => g.stopCycle s) f
  let f2 := (f1.nis.map (·.1)).foldl (fun g p => g.niCycle p) f1.periodic
  f2.dieIds.foldl (fun g d => g.tracePath d) f2

/-- Time goes on to t: the milestone boundary on the way, if any, then the events scheduled up to t. -/
def Fabric.advance (f : Fabric) (t : Nat) : Fabric :=
  let f1 := if (f.time.booked + 1) * msLen ≤ t then f.milestone else f
  (f1.instant t).reach t

/-- One fabric cycle. DESIGN CHOICE (log entry 2). DESIGN CHOICE (log entry 126). -/
def Fabric.cycle (f : Fabric) : Fabric :=
  let f1 := f.advance ((f.time.fcc / f.unit + 1) * f.unit)
  (f1.when f1.moving Fabric.dataCycle).compareWait .fmu

/-- An idle cycle of the block: nothing waits in the queue. DESIGN CHOICE (log entry 2). -/
def tick (s : State) : Host.Outcome State Fault Refusal :=
  s.run fun f => f.when f.live Fabric.cycle

end Sys2Proof.Machine
end

