-- ==== Sys2Proof/Safety.lean ====
section
/-! DEFINITION. What a state of good form is, in the terms that statements use: tables whose keys rise,
core-local memories in canonical form, and the result of a step. -/

namespace Sys2Proof.Machine

/-- The keys of a table rise strictly, so that equal tables are equal data. -/
def NMap.sorted {α : Type} : NMap α → Bool
  | [] => true
  | [_] => true
  | (a, _) :: (b, y) :: m => a < b && NMap.sorted ((b, y) :: m)

/-- The core-local memories are in canonical form. -/
def Fabric.memOk (f : Fabric) : Bool := f.nis.all fun n => n.2.core.lm.wf

/-- A step's result. -/
def stepTo (s t : State) : Prop := step s = .next t

end Sys2Proof.Machine
end

