-- ==== Sys2Proof/Certificates/Slice0/Obligations.lean ====
section
/-! DEFINITION. The statements for the provers: what each command does to the state, frames, encodings,
codes and invariants. -/

open Sys2Proof Sys2Proof.Machine

/-! ## Words used by the statements -/

namespace Sys2Proof.Machine

/-- The command answers the state with the fabric `g` and the same queue. -/
def gives (c : Instr) (s : State) (g : Fabric) : Prop := exec c s = .next { s with fab := g }

/-- The command answers a state with the same queue whose fabric satisfies `P`. -/
def answers (c : Instr) (s : State) (P : Fabric → Prop) : Prop :=
  ∃ g, exec c s = .next { s with fab := g } ∧ P g

/-- The op `e` is the next to start on a TSQ channel and no rule holds it back (07 R162). -/
def startable (f : Fabric) (p c : Nat) (e : QEntry) : Prop :=
  f.seqLive (.tsq p c) = true ∧ f.canStart (.tsq p c) = true ∧ f.head (.tsq p c) = some e

/-- The op `e` is the next to start on the FMU's stream, past ops that decode rejects. -/
def fmuStartable (f : Fabric) (e : QEntry) : Prop :=
  f.seqLive .fmu = true ∧ f.fmuSkip.canStart .fmu = true ∧ f.fmuSkip.head .fmu = some e

/-- An NI of a kind that is powered, in a package that is not stopped or in reset. -/
def niActs (f : Fabric) (p kind : Nat) : Prop := f.moving = true ∧ f.kind p = kind ∧ f.powered p = true

/-- The packet that an NI takes next from its receive buffer is whole and passes its check: it has left
the buffer, and its credits are on their way back, in `g`. -/
def delivers (f : Fabric) (p : Nat) (t : QPkt → Bool) (q : QPkt) (g : Fabric) : Prop :=
  takeVc t f p (List.range 12) = some (q, g) ∧ Header.checks q.hdr = true ∧ q.truncated = false

end Sys2Proof.Machine

/-! ## The queue -/

/-- A step takes the command at the front of the queue and runs it with the queue's rest; on an empty
queue one fabric cycle passes, or nothing while the fabric is in reset (log entry 2). Every command answers a
next state and leaves the queue alone. -/
def Obligations.StepRunsTheFrontCommand : Prop :=
  (∀ (c : Instr) (rest : List Instr) (s : State), s.pending = c :: rest → step s = exec c { s with pending := rest }) ∧
  (∀ s : State, s.pending = [] → s.fab.boot.inReset = false → step s = .next { s with fab := s.fab.cycle }) ∧
  (∀ s : State, s.pending = [] → s.fab.boot.inReset = true → step s = .next s) ∧
  (∀ (c : Instr) (s : State), answers c s fun _ => True)

/-! ## Ops of a TSQ channel (07 R162) -/

/-- Starting an op removes it from the ops not yet started, counts it, captures its domain and resets
its counter if `CRST` is 1; nothing outside its NI changes. -/
def Obligations.StartOfAnOp : Prop :=
  ∀ (f : Fabric) (p c : Nat) (e : QEntry), f.entry (.tsq p c) e.eid = some e → e.started = false →
    let w : Seqr := .tsq p c
    let g := f.begin w e
    (g.chan w).started = (f.chan w).started + 1 ∧
    (∃ x, g.entry w e.eid = some x ∧ x.started = true ∧ x.op = e.op ∧
      x.work.dom = BitVec.ofNat 6 (fld (f.niReg p (0x400 + 16 * c)) 5 0) ∧ x.work.startAt = f.time.fcc) ∧
    (∀ n, g.ctr w n = if opCrst e.op = true ∧ n = opCnt e.op then ((f.ctr w n).now f.time.fcc).crst else f.ctr w n) ∧
    (∀ q, q ≠ p → g.ni q = f.ni q) ∧ g.stops = f.stops ∧ g.dies = f.dies ∧ g.fmu = f.fmu ∧
    g.time = f.time ∧ g.bus = f.bus

/-- NOP, FENCE, the two LDDs, MOVE, MOVEX, MCAST, REDUCE, STAMP and a WAIT start once they are at the
head and nothing holds them back; NOP completes at its start. -/
def Obligations.ChannelOpsStart : Prop :=
  ∀ (s : State) (p c : Nat) (e : QEntry), startable s.fab p c e →
    let w : Seqr := .tsq p c
    let g := s.fab.begin w e
    (opcOf e.op = ocNop → gives (.nop w) s (g.finish w e.eid .ok 0)) ∧
    (opcOf e.op = ocFence → gives (.fence w) s (g.fenceWaits w e.eid)) ∧
    (opcOf e.op = ocLdd → fld e.op 89 88 = 0 → gives (.lddTensor p c) s (g.updChan w fun k => { k with reason := 6 })) ∧
    (opcOf e.op = ocLdd → fld e.op 89 88 = 1 →
      gives (.lddProgram p c) s ((g.updChan w fun k => { k with
        prog := some (e.op.extractLsb' 0 32, fld e.op 79 64), progOps := [] }).finish w e.eid .ok 0)) ∧
    (opcOf e.op = ocMove → ∀ d, gives (.move p c d) s (g.startMove p c e false d)) ∧
    (opcOf e.op = ocMovex → ∀ d, gives (.movex p c d) s (g.startMove p c e true d)) ∧
    (opcOf e.op = ocMcast → ∀ d, gives (.mcast p c d) s (g.startMcast p c e d)) ∧
    (opcOf e.op = ocReduce → ∀ d a, gives (.reduce p c d a) s (g.startReduce p c e d a)) ∧
    (opcOf e.op = ocStamp →
      gives (.stamp p c) s (g.beginWrite w e.eid (fld e.op 31 0)
        (toBytesLE (fccWord (g.fccOf (dieOfPort p))).toNat 8 ++ toBytesLE (g.fccOf (dieOfPort p) / msLen % 2 ^ 40) 8))) ∧
    (opcOf e.op = ocWait → s.fab.running w ocWait = none →
      gives (.wait w) s (if waitHolds (s.fab.compared w (fld e.op 95 88)) e.op then g.finish w e.eid .ok 0
        else g.updChan w fun k => { k with reason := 4 }))

/-- A TREE op starts: a set-up reads its descriptor, a join or leave sends its request; in crawl
service each completes `UNREACHABLE` (10 R231, R232; 18 R397). -/
def Obligations.TreeOpsStart : Prop :=
  ∀ (s : State) (p c : Nat) (e : QEntry), startable s.fab p c e → opcOf e.op = ocTree →
    let w : Seqr := .tsq p c
    let g := s.fab.begin w e
    let out (h : Fabric) : Fabric := if g.crawl then g.finish w e.eid .unreachable (infoPort p 0) else h
    (fld e.op 95 94 = 0 → gives (.treeSetUp p c) s (out (g.updChan w fun k => { k with reason := 6 }))) ∧
    (fld e.op 95 94 = 1 → gives (.treeJoin p c) s (out (g.sendTree p c e 1 []))) ∧
    (fld e.op 95 94 = 2 → gives (.treeLeave p c) s (out (g.sendTree p c e 2 [])))

/-- A SIGNAL to a counter of its own NI adds `ADDEND` to it modulo 2^48 and completes OK, advancing its
completion counter by `CINC`, when its channel waits for nothing else; any other SIGNAL queues one SIG
packet under the control credit. Nothing outside the NI changes. -/
def Obligations.SignalAddsOrSends : Prop :=
  ∀ (s : State) (p c : Nat) (e : QEntry), startable s.fab p c e → opcOf e.op = ocSignal →
    let w : Seqr := .tsq p c
    let f := s.fab
    (fld e.op 95 94 = 3 → (f.chan w).queue = [e] →
      answers (.signal w) s fun g =>
        (g.chan w).queue = [] ∧
        (∀ n, g.ctr w n =
          let t := f.time.fcc
          let k0 := if opCrst e.op = true ∧ n = opCnt e.op then ((f.ctr w n).now t).crst else f.ctr w n
          let k := if n = fld e.op 63 56 then (k0.now t).addTo (e.op.extractLsb' 0 48) else k0
          if n = opCnt e.op then (k.now t).complete c (opCinc e.op) .ok 0 else k) ∧
        (∀ q, q ≠ p → g.ni q = f.ni q) ∧ g.stops = f.stops ∧ g.dies = f.dies ∧ g.fmu = f.fmu ∧ g.time = f.time) ∧
    (fld e.op 95 94 ≠ 3 →
      answers (.signal w) s fun g =>
        (∃ x, g.injQ p 102 = f.injQ p 102 ++ [x] ∧ x.pkt.hdr.kind = 4 ∧ x.pkt.hdr.dest = e.op.extractLsb' 66 28 ∧
          x.pkt.hdr.domain = BitVec.ofNat 6 (fld (f.niReg p (0x400 + 16 * c)) 5 0) ∧
          sigAddend x.pkt.aux = e.op.extractLsb' 0 48 ∧ sigNcomb x.pkt.aux = 1) ∧
        (∀ q, q ≠ p → g.ni q = f.ni q) ∧ g.stops = f.stops ∧ g.dies = f.dies ∧ g.fmu = f.fmu ∧ g.time = f.time)

/-- A waiting WAIT compares: where the counter has reached `VALUE` it completes OK, with its channel's
reason restored; where it has not, nothing changes (07 R174). -/
def Obligations.WaitCompares : Prop :=
  ∀ (s : State) (p c : Nat) (e : QEntry), s.fab.seqLive (.tsq p c) = true →
    s.fab.running (.tsq p c) ocWait = some e → e.aborted = false →
    let w : Seqr := .tsq p c
    let f := s.fab
    let v := (f.compared w (fld e.op 95 88)).toNat
    (v < fld e.op 47 0 → exec (.wait w) s = .next s) ∧
    (fld e.op 47 0 ≤ v → gives (.wait w) s
      ((f.updChan w fun k => { k with reason := if k.halted then 8 else 0 }).finish w e.eid .ok 0)) ∧
    (fld e.op 47 0 ≤ v → (f.chan w).queue = [e] → (f.chan w).aborts = [] →
      answers (.wait w) s fun g => (g.chan w).queue = [] ∧
        g.ctr w (opCnt e.op) = ((f.ctr w (opCnt e.op)).now f.time.fcc).complete c (opCinc e.op) .ok 0 ∧
        (∀ n, n ≠ opCnt e.op → g.ctr w n = f.ctr w n) ∧ (∀ q, q ≠ p → g.ni q = f.ni q) ∧
        g.stops = f.stops ∧ g.dies = f.dies ∧ g.fmu = f.fmu ∧ g.time = f.time)

/-- PROBE takes the next probe number of its NI and changes no other NI; when its block becomes visible
PROBE_WRITE_VISIBLE has written it to core-local memory and completed the op. -/
def Obligations.ProbeCapturesThenWrites : Prop :=
  (∀ (s : State) (p c : Nat) (e : QEntry), startable s.fab p c e → opcOf e.op = ocProbe →
    answers (.probe p c) s fun g =>
      (g.ni p).tsq.probeSeq = nextProbe (s.fab.ni p).tsq.probeSeq ∧
      ∀ q, q ≠ p → g.ni q = s.fab.ni q) ∧
  (∀ (s : State) (p c : Nat) (e : QEntry) (r : Run), s.fab.seqLive (.tsq p c) = true →
    s.fab.running (.tsq p c) ocProbe = some e → (s.fab.chan (.tsq p c)).queue = [e] → e.aborted = false →
    (s.fab.chan (.tsq p c)).aborts = [] → e.work.runs = [r] →
    answers (.probeWriteVisible p c) s fun g =>
      (g.ni p).core.lm = (s.fab.ni p).core.lm.write r.local_ r.data ∧ (g.chan (.tsq p c)).queue = [] ∧
      g.ctr (.tsq p c) (opCnt e.op) = ((s.fab.ctr (.tsq p c) (opCnt e.op)).now s.fab.time.fcc).complete c (opCinc e.op) .ok 0)

/-- An op issued on the Fabric Issue Port is accepted, its decode status is answered in the next fc, and it
is queued when that is OK; one presented while the port is not ready is not accepted. -/
def Obligations.FipIssueQueuesTheOp : Prop :=
  ∀ (s : State) (p : Nat) (op : BitVec 128), s.fab.seqLive (.tsq p 0) = true → opcOf op ≠ ocAbort →
    let c := opChan op
    let w : Seqr := .tsq p c
    (s.fab.fipReady p c = true → decodeOp s.fab.variant .fip op = .ok →
      answers (.fipIssue p op) s fun g =>
        (g.ni p).tsq.fip = { (s.fab.ni p).tsq.fip with accept := true, next := .ok } ∧
        (∃ id, (g.chan w).queue = (s.fab.chan w).queue ++ [{ eid := id, op := op }]) ∧
        (∀ q, q ≠ p → g.ni q = s.fab.ni q)) ∧
    (s.fab.fipReady p c = true → decodeOp s.fab.variant .fip op ≠ .ok →
      answers (.fipIssue p op) s fun g =>
        (g.ni p).tsq.fip = { (s.fab.ni p).tsq.fip with accept := true, next := decodeOp s.fab.variant .fip op } ∧
        (g.chan w).queue = (s.fab.chan w).queue) ∧
    (s.fab.fipReady p c = false →
      answers (.fipIssue p op) s fun g => (g.ni p).tsq.fip = { (s.fab.ni p).tsq.fip with accept := false } ∧
        (g.chan w).queue = (s.fab.chan w).queue) ∧
    (∀ r : FipRsp, (r.passed 1).accept = false ∧ (r.passed 1).valid = r.accept ∧
      (r.accept = true → (r.passed 1).status = r.next) ∧ (∀ n, n ≠ 1 → r.passed n = {}))

/-- A program fetch reads the op at the program pointer, which moves 16 bytes on, and queues it when it
decodes; a rejected op is recorded in `DREJ` and the program goes on. -/
def Obligations.ProgramFetchAdvances : Prop :=
  ∀ (s : State) (p c : Nat) (op : BitVec 128) (pc : BitVec 32) (n : Nat),
    let w : Seqr := .tsq p c
    s.fab.seqLive w = true → (s.fab.chan w).prog = some (pc, n + 1) → (s.fab.chan w).queue.length < 64 →
    (decodeOp s.fab.variant .prog op = .ok →
      answers (.programFetch p c op) s fun g =>
        (g.chan w).prog = some (pc + 16, n) ∧
        ∃ id, (g.chan w).queue = (s.fab.chan w).queue ++ [{ eid := id, op := op }]) ∧
    (decodeOp s.fab.variant .prog op ≠ .ok →
      answers (.programFetch p c op) s fun g =>
        (g.chan w).queue = (s.fab.chan w).queue ∧ (g.chan w).drejN = (s.fab.chan w).drejN + 1 ∧
        (g.chan w).drejOp = BitVec.ofNat 6 (opcOf op))

/-- The descriptor an LDD has read goes into its slot when it passes the checks, and the LDD completes
OK; otherwise the slot is invalid and the LDD completes `MALFORMED`. An op that captures the slot in that
fc still gets what it held before. -/
def Obligations.LddWritesItsSlot : Prop :=
  ∀ (s : State) (p c : Nat) (d : BitVec 512) (e : QEntry),
    let w : Seqr := .tsq p c
    let n := fld e.op 95 90
    let ends (st : Status) (info : BitVec 48) (g : Fabric) : Prop :=
      (∀ k, k ≠ n → (g.ni p).tsq.slots.find? k = (s.fab.ni p).tsq.slots.find? k) ∧ (∀ k, g.slot p k = s.fab.slot p k) ∧
      (g.chan w).queue = [] ∧
      g.ctr w (opCnt e.op) = ((s.fab.ctr w (opCnt e.op)).now s.fab.time.fcc).complete c (opCinc e.op) st info ∧
      (∀ k, k ≠ opCnt e.op → g.ctr w k = s.fab.ctr w k) ∧ (∀ q, q ≠ p → g.ni q = s.fab.ni q) ∧ g.stops = s.fab.stops ∧
      g.fmu = s.fab.fmu ∧ g.time = s.fab.time
    s.fab.seqLive w = true → s.fab.running w ocLdd = some e → (s.fab.chan w).queue = [e] → e.aborted = false →
    (s.fab.chan w).aborts = [] →
    (descOk d = true → answers (.lddSlotWrite p c d) s fun g =>
      (g.ni p).tsq.slots.find? n = some d ∧
      (∀ t, t ≠ s.fab.time.fcc → { g with time := { g.time with fcc := t } }.slot p n = some d) ∧ ends .ok 0 g) ∧
    (descOk d = false → answers (.lddSlotWrite p c d) s fun g =>
      (g.ni p).tsq.slots.find? n = none ∧ ends .malformed (infoMal e.op 0x02 0) g)

/-- A WAIT whose time has passed completes `TIMEOUT` if its condition still does not hold, and halts its
channel if `THALT` is 1; an ABORT on an empty channel completes `ABORT_LATE` and releases the channel. -/
def Obligations.WaitTimeoutAndLateAbort : Prop :=
  (∀ (s : State) (p c : Nat) (e : QEntry),
    let w : Seqr := .tsq p c
    let t := e.work.startAt + fld e.op 79 64 * 1024 * s.fab.unit
    s.fab.seqLive w = true → s.fab.running w ocWait = some e → e.aborted = false → fld e.op 79 64 ≠ 0 →
    s.fab.due t = true →
    gives (.waitTimeout w) s
      (let f1 := s.fab.reach t
       let f2 := f1.updChan w fun k => { k with reason := if k.halted then 8 else 0 }
       if waitHolds (f1.compared w (fld e.op 95 88)) e.op then f2.finish w e.eid .ok 0
       else
         let f3 := f2.finish w e.eid .timeout 0
         if bit e.op 87 then f3.halt w else f3)) ∧
  (∀ (s : State) (p : Nat) (op : BitVec 128) (rest : List (BitVec 128)),
    let w : Seqr := .tsq p (fld op 95 92)
    s.fab.seqLive (.tsq p 0) = true → (s.fab.ni p).tsq.pendingAborts = op :: rest → (s.fab.chan w).queue = [] →
    answers (.abort p) s fun g =>
      (g.chan w).halted = false ∧ (g.chan w).queue = [] ∧ (g.ni p).tsq.pendingAborts = rest ∧
      g.ctr w (opCnt op) =
        (let k := (s.fab.ctr w (opCnt op)).now s.fab.time.fcc
         (if opCrst op then k.crst else k).complete (fld op 95 92) (opCinc op) .abortLate 0))

/-- A completion counter: the value advances by `CINC` whatever the status, `NBAD` counts statuses other
than OK and saturates, and the first status other than OK stays with its information; of two of one fc that
of the lower channel. `CRST` clears the
record and keeps the value in `LAST`; an addition that landed in the same fc counts after it, and is not in
`LAST` (07 R172, log entry 153). -/
def Obligations.CompletionCounterRules : Prop :=
  ∀ (k : Counter) (ch cinc : Nat) (st : Status) (info : BitVec 48),
    let g := k.complete ch cinc st info
    g.value = k.value + BitVec.ofNat 48 cinc ∧
    g.nbad = (if st = .ok ∨ k.nbad = 4095 then k.nbad else k.nbad + 1) ∧
    (k.status ≠ .ok → k.giver = none → g.status = k.status ∧ g.info = k.info) ∧
    (∀ c, k.status ≠ .ok → k.giver = some c → st ≠ .ok →
      (g.status, g.info) = if ch < c then (st, info) else (k.status, k.info)) ∧
    (k.status = .ok → st ≠ .ok → g.status = st ∧ g.info = info ∧ g.giver = some ch) ∧
    (st = .ok → g.status = k.status ∧ g.info = k.info) ∧
    (∀ t, t ≠ k.at_ → (k.now t).giver = none ∧ (k.now t).toCtrRec = k.toCtrRec) ∧
    (k.late = [] → k.crst.toCtrRec = { value := 0, nbad := 0, status := .ok, info := 0, last := k.value, lseq := k.lseq + 1 }) ∧
    (∀ a, (k.addTo a).crst.value = k.crst.value + a ∧ (k.addTo a).crst.last = k.crst.last ∧
      (k.addTo a).crst.seen k.at_ = k.crst.seen k.at_)

/-- MOVE between two tiles of core-local memory: the lines of the copy hold the tile's bytes, each in one
line of 128 B and, of a tile of one row, in their places; in each fc the NI writes the next of them and
counts its bytes, and the op completes at the last. -/
def Obligations.LocalCopyWritesTheTile : Prop :=
  (∀ (d : BitVec 512) (t a : Nat) (bs : Bytes) (m : Mem), tileRows d t = [a] → bs.length = rowBytes d t →
    let l := copyRuns d t bs
    let m1 := l.foldl (fun x r => x.write r.local_ r.data) m
    (∀ r ∈ l, 0 < r.bytes ∧ r.data.length = r.bytes ∧ r.local_ % 128 + r.bytes ≤ 128) ∧
    (∀ i, i < bs.length → m1.read (a + i) = bs[i]?) ∧
    (∀ b, b < a ∨ a + bs.length ≤ b → m1.read b = m.read b)) ∧
  (∀ (f : Fabric) (p c : Nat) (e : QEntry) (r : Run) (rs : List Run), (f.chan (.tsq p c)).queue = [e] →
    (f.chan (.tsq p c)).aborts = [] → e.copying = true → e.issued = true → e.work.runs = r :: rs →
    let g := f.copyLine p c e
    (g.ni p).core.lm = (f.ni p).core.lm.write r.local_ r.data ∧
    (rs = [] → (g.chan (.tsq p c)).queue = []) ∧
    (rs ≠ [] → ∃ x, (g.chan (.tsq p c)).queue = [x] ∧ x.op = e.op ∧ x.work.runs = rs ∧
      x.work.committed = e.work.committed + r.bytes) ∧
    (∀ q, q ≠ p → g.ni q = f.ni q) ∧ g.stops = f.stops)

/-! ## The FMU's stream (07 R158; 15; 12; 16; 17) -/

/-- NOP, FENCE, SIGNAL and WAIT of the FMU's stream act on its own channel and its own counters. -/
def Obligations.StreamOpsStart : Prop :=
  ∀ (s : State) (e : QEntry), fmuStartable s.fab e →
    let g := s.fab.fmuSkip.begin .fmu e
    (opcOf e.op = ocNop → gives (.nop .fmu) s (g.finish .fmu e.eid .ok 0)) ∧
    (opcOf e.op = ocFence → gives (.fence .fmu) s (g.fenceWaits .fmu e.eid)) ∧
    (opcOf e.op = ocSignal → fld e.op 95 94 = 3 →
      gives (.signal .fmu) s ((g.updCtr .fmu (fld e.op 63 56) fun k => k.addTo (e.op.extractLsb' 0 48)).finish .fmu e.eid .ok 0)) ∧
    (opcOf e.op = ocSignal → fld e.op 95 94 ≠ 3 →
      answers (.signal .fmu) s fun h => ∃ x, h.injQ fmuPort 102 = g.injQ fmuPort 102 ++ [x] ∧
        x.pkt.hdr.kind = 4 ∧ x.pkt.hdr.dest = e.op.extractLsb' 66 28 ∧ sigAddend x.pkt.aux = e.op.extractLsb' 0 48) ∧
    (opcOf e.op = ocWait → s.fab.running .fmu ocWait = none →
      gives (.wait .fmu) s (if waitHolds (s.fab.compared .fmu (fld e.op 95 88)) e.op then g.finish .fmu e.eid .ok 0
        else g.updChan .fmu fun k => { k with reason := 4 }))

/-- STAGE, CHECK, TURN and DRAIN start: refused with their reason, or accepted. An accepted STAGE sends
its order to every unit it addresses and clears the checked mark; an accepted TURN seals the set and its
result reads not valid; an accepted DRAIN begins to sample its epoch. -/
def Obligations.ManagementOpsStart : Prop :=
  ∀ (s : State) (e : QEntry), fmuStartable s.fab e → s.fab.moving = true →
    let g := s.fab.fmuSkip.begin .fmu e
    (opcOf e.op = ocStage → s.fab.stagesOpen < 64 →
      (∀ r, g.stageReason e.op = some r → gives .stage s (g.refuseOp e r)) ∧
      (g.stageReason e.op = none → answers .stage s fun h =>
        h.fmu.road.orders = g.fmu.road.orders ++ (g.stageUnits e.op).map (fun u =>
          (u, .stage e.eid (BitVec.ofNat 32 (stOffset e.op)) (stData e.op) e.op)) ∧
        h.fmu.turn.checked = false ∧ h.nis = g.nis ∧ h.stops = g.stops ∧ h.fmu.cfg = g.fmu.cfg)) ∧
    (opcOf e.op = ocCheck → s.fab.fmu.chan.queue = [] →
      gives .check s (g.stageRepairs.checkReport e g.stageRepairs.violations) ∧
      (g.stageRepairs.violations = [] → answers .check s fun h =>
        h.fmu.turn.checked = true ∧ h.fmu.res.chk.valid = true ∧ h.fmu.res.chk.seq = g.fmu.res.chk.seq + 1)) ∧
    (opcOf e.op = ocTurn → s.fab.fmu.chan.queue = [] →
      (∀ r, g.turnReason (fld e.op 39 0) = some r → gives .turn s (g.refuseOp e r)) ∧
      (g.turnReason (fld e.op 39 0) = none → answers .turn s fun h =>
        h.fmu.turn.sealed_ = true ∧ h.fmu.turn.m = BitVec.ofNat 40 (fld e.op 39 0) ∧
        h.fmu.turn.epoch = g.fmu.turn.epoch ∧ h.fmu.res.turn.valid = false ∧ h.fmu.res.turn.seq = g.fmu.res.turn.seq ∧
        h.fmu.res.turn.words = g.fmu.res.turn.words)) ∧
    (opcOf e.op = ocDrain →
      let ep : BitVec 1 := BitVec.ofNat 1 (fld e.op 95 95)
      (ep = g.epoch → gives .drain s (g.refuseOp e 0x0A)) ∧
      (ep ≠ g.epoch → g.fmu.turn.sealed_ = true → gives .drain s (g.refuseOp e 0x0B)) ∧
      (ep ≠ g.epoch → g.fmu.turn.sealed_ = false → g.drained ep = false → answers .drain s fun h =>
        h.fmu.drain.epoch = some ep ∧ h.fmu.drain.left = max 1 (fld e.op 79 64) ∧ h.fmu.drain.sampled = none ∧
        h.fmu.res.drain.valid = false ∧ h.fmu.res.drain.seq = g.fmu.res.drain.seq) ∧
      (ep ≠ g.epoch → g.fmu.turn.sealed_ = false → g.drained ep = true → answers .drain s fun h =>
        h.fmu.res.drain.valid = false ∧ h.fmu.drain = g.fmu.drain))

/-- The four FENCEP forms send their orders: a port's to its stop and its NI, a domain's to every Core
NI and Gateway NI; a port that cannot be fenced is refused. -/
def Obligations.FenceOpsOrder : Prop :=
  ∀ (s : State) (e : QEntry), fmuStartable s.fab e → s.fab.moving = true → opcOf e.op = ocFencep →
    let g := s.fab.fmuSkip.begin .fmu e
    let p := fld e.op 89 80
    let d := fld e.op 79 74
    let sends (c : Instr) (on : Bool) : Prop :=
      (g.fenceable p = true → answers c s fun h =>
        h.fmu.road.orders = g.fmu.road.orders ++ [(.stop (stopOfPort p), .fencePort p on), (.ni p, .fencePort p on)] ∧
        h.nis = g.nis ∧ h.stops = g.stops) ∧
      (g.fenceable p = false → gives c s (g.refuseOp e 0x09))
    (bit e.op 93 = false → fld e.op 95 94 = 1 → sends .fencePort true) ∧
    (bit e.op 93 = false → fld e.op 95 94 = 0 → sends .openPort false) ∧
    (bit e.op 93 = true → fld e.op 95 94 = 1 → answers .fenceDomain s fun h =>
      h.fmu.dfence = setBit64 g.fmu.dfence d true ∧ h.fmu.road.orders = g.fmu.road.orders ++ g.fenceDomOrders d true ∧
      h.nis = g.nis ∧ h.stops = g.stops) ∧
    (bit e.op 93 = true → fld e.op 95 94 = 0 → answers .openDomain s fun h =>
      h.fmu.dfence = setBit64 g.fmu.dfence d false ∧ h.fmu.road.orders = g.fmu.road.orders ++ g.fenceDomOrders d false ∧
      h.nis = g.nis ∧ h.stops = g.stops)

/-- A SPARE or POWER joins the list of staged actions, clears the checked mark and changes nothing else
until the swap; a POWER waits while the package is stopped; while a turn is sealed it is refused with reason 0x07 (the model's reading, log entry 41). -/
def Obligations.StagedActionsJoinTheList : Prop :=
  ∀ (s : State) (e : QEntry), fmuStartable s.fab e →
    let g := s.fab.fmuSkip.begin .fmu e
    let stages (c : Instr) (a : Action) : Prop :=
      (g.fmu.turn.sealed_ = true → gives c s (g.refuseOp e 0x07)) ∧
      (g.fmu.turn.sealed_ = false → answers c s fun h =>
        h.fmu.drain.actions = g.fmu.drain.actions ++ [a] ∧ h.fmu.turn.checked = false ∧
        h.nis = g.nis ∧ h.stops = g.stops ∧ h.dies = g.dies)
    (opcOf e.op = ocSpare →
      let a := Action.spare (fld e.op 95 92) (fld e.op 91 82) (e.op.extractLsb' 0 32)
      (fld e.op 95 92 = 0 → stages .spareWire a) ∧ (fld e.op 95 92 = 1 → stages .spareRetrain a) ∧
      (fld e.op 95 92 = 2 → stages .spareBank a) ∧ (fld e.op 95 92 = 3 → stages .spareSlice a) ∧
      (fld e.op 95 92 = 4 → bit e.op 0 = true → stages .spareBypass a) ∧
      (fld e.op 95 92 = 4 → bit e.op 0 = false → stages .spareRestore a) ∧
      (fld e.op 95 92 = 5 → stages .spareGateway a) ∧ (fld e.op 95 92 = 6 → stages .spareTree a)) ∧
    (s.fab.moving = true → opcOf e.op = ocPower → g.kind (fld e.op 89 80) ≠ 0 →
      (bit e.op 95 = true → stages .powerOn (.power (fld e.op 89 80) true)) ∧
      (bit e.op 95 = false → stages .powerOff (.power (fld e.op 89 80) false)))

/-- A SNAP whose instant passes the checks sets it, for the counter freeze or for the stop, unless a
HALT stop is pending for an earlier instant, which then applies; another SNAP is refused with its
reason. -/
def Obligations.SnapSetsItsInstant : Prop :=
  ∀ (s : State) (e : QEntry), fmuStartable s.fab e → opcOf e.op = ocSnap →
    let g := s.fab.fmuSkip.begin .fmu e
    (∀ r, g.snapReason e.op = some r →
      (bit e.op 95 = false → gives .snapFreeze s (g.refuseOp e r)) ∧ (bit e.op 95 = true → gives .snapStop s (g.refuseOp e r))) ∧
    (g.snapReason e.op = none →
      (bit e.op 95 = false → answers .snapFreeze s fun h =>
        h.fmu.stop = { g.fmu.stop with freezeAt := some (fld e.op 59 0) } ∧ h.nis = g.nis ∧ h.stops = g.stops) ∧
      (bit e.op 95 = true → answers .snapStop s fun h =>
        h.nis = g.nis ∧ h.stops = g.stops ∧
        (∀ a c, g.fmu.stop.stopAt = some (a, c) → a ≤ fld e.op 59 0 → h.fmu.stop = g.fmu.stop) ∧
        ((∀ a c, g.fmu.stop.stopAt = some (a, c) → fld e.op 59 0 < a) → h.fmu.stop =
          { g.fmu.stop with stopAt := some (fld e.op 59 0, false), lastAt := fld e.op 59 0 })))

/-! ## The service road and turns (13 R297; 15) -/

/-- A unit performs the oldest order sent to it and answers; the FMU takes the answer, and a STAGE
completes once every unit it addressed has answered. A stop answers a board order, and the FMU keeps
what it counted. -/
def Obligations.OrdersAndConfirmations : Prop :=
  (∀ (s : State) (u v : UnitId) (o : Order) (rest : List (UnitId × Order)), s.fab.moving = true →
    (∀ x ∈ s.fab.fmu.road.answers, ¬ (x.1 = u ∧ x.2.direct = true)) →
    takeFirst (fun x => x.1 == u && x.2.direct) s.fab.fmu.road.orders = some ((v, o), rest) →
    answers (.mgtOpReceive u) s fun h =>
      h.fmu.road.orders = rest ∧ h.fmu.road.answers = (s.fab.applyOrder v o).fmu.road.answers ++ [(v, o)] ∧
      h.nis = (s.fab.applyOrder v o).nis ∧ h.stops = (s.fab.applyOrder v o).stops ∧
      (∀ p on, v = .ni p → o = .fencePort p on → (h.ni p).pwr.fence = on) ∧
      (∀ eid off w op, o = .stage eid off w op → h.nis = (s.fab.stageWrite v off.toNat w).nis ∧
        h.stops = (s.fab.stageWrite v off.toNat w).stops)) ∧
  (∀ (s : State) (u v : UnitId) (eid : Nat) (off data : Word) (op : Op) (rest : List (UnitId × Order)) (e : QEntry),
    s.fab.moving = true →
    takeFirst (fun x => x.1 == u && x.2.direct) s.fab.fmu.road.answers = some ((v, .stage eid off data op), rest) →
    s.fab.fmu.chan.queue = [e] → e.eid = eid → e.aborted = false → s.fab.fmu.chan.aborts = [] →
    answers (.mgtRspReceive u) s fun h =>
      h.fmu.road.answers = rest ∧
      h.fmu.chan.queue = (if e.work.outstanding ≤ 1 then []
        else [{ e with work := { e.work with outstanding := e.work.outstanding - 1 } }])) ∧
  (∀ (s : State) (e : QEntry), s.fab.moving = true → s.fab.fenceOpen = false →
    s.fab.running .fmu ocFencep = some e →
    gives .fencepComplete s ((s.fab.finish .fmu e.eid .ok 0).digestEvent 1) ∧
    (s.fab.fmu.chan.queue = [e] → s.fab.fmu.chan.aborts = [] → answers .fencepComplete s fun h =>
      h.fmu.chan.queue = [] ∧ h.nis = s.fab.nis ∧ h.stops = s.fab.stops)) ∧
  (∀ (s : State) (t ms : Nat) (rest : List (UnitId × Order)), s.fab.moving = true →
    s.fab.fmu.road.orders = (.stop t, .gather ms) :: rest →
    answers (.cntGatherReceive t) s fun h =>
      h.fmu.road.orders = rest ∧ h.fmu.road.answers = s.fab.fmu.road.answers ++ [(.stop t, .gather ms)] ∧
      h.nis = s.fab.nis ∧ h.stops = s.fab.stops) ∧
  (∀ (s : State) (t ms : Nat) (rest : List (UnitId × Order)), s.fab.moving = true →
    s.fab.fmu.road.answers = (.stop t, .gather ms) :: rest → s.fab.fmu.boards.gathering = some ms →
    let all := s.fab.fmu.boards.gathered.put t (s.fab.stopU t).obs.captured
    (∃ u, u < nStops s.fab.variant ∧ NMap.find? all u = none) →
    answers (.cntDataReceive t) s fun h =>
      h.fmu.road.answers = rest ∧ h.fmu.boards.gathered = all ∧ h.fmu.boards.gathering = some ms ∧
      h.fmu.res = s.fab.fmu.res)

/-- Arming and disarming: a unit confirms or refuses, a woken port confirms, the deadline decides, each
unit confirms its disarm, a missing confirmation is reported once, and a cancel before the deadline
disarms the turn while a later one has no effect. -/
def Obligations.ArmingAndDisarming : Prop :=
  (∀ (s : State) (u : UnitId) (good : Bool) (x : List Nat),
    let t := s.fab.fmu.turn
    s.fab.moving = true → t.arming = true → u ∈ s.fab.unarmed →
    (∀ p, u = .ni p → (s.fab.sport p).pwr = .waking → good = false) → s.fab.time.fcc ≤ t.armBy → (t.quiescing = true → s.fab.quietUnit u = true) →
    let ok := good && (!t.quiescing || s.fab.measured u x)
    answers (.unitArm u good x) s fun h =>
      h.fmu.turn.confirmed = t.confirmed ++ (if ok then [u] else []) ∧
      h.fmu.turn.refused = t.refused ++ (if ok then [] else [u]) ∧ h.fmu.turn.sealed_ = t.sealed_ ∧ h.nis = s.fab.nis) ∧
  (∀ (s : State) (p : Nat), s.fab.moving = true → s.fab.fmu.turn.arming = true → (s.fab.sport p).pwr = .waking →
    s.fab.kind p ≠ 0 → (s.fab.ni p).pwr.waking.isSome = true → s.fab.time.fcc ≤ s.fab.fmu.turn.armBy →
    (answers (.portWake p true) s fun h =>
      (h.ni p).pwr.waking = none ∧ h.fmu.turn.confirmed = s.fab.fmu.turn.confirmed ++ [.ni p]) ∧
    (answers (.portWake p false) s fun h =>
      (∃ q, h.fmu.turn.notReady = some q ∧ q ≤ p) ∧ (h.ni p).pwr.waking = none ∧ (∀ q, q ≠ p → h.ni q = s.fab.ni q) ∧
      h.fmu.fault.arrived = s.fab.fmu.fault.arrived ++ [mkFault 0 0 FaultKind.pwrWakeFail.code FaultKind.pwrWakeFail.cls
        false p s.fab.time.fcc])) ∧
  (∀ s : State, s.fab.moving = true → s.fab.fmu.turn.arming = true → s.fab.due s.fab.fmu.turn.armBy = true →
    let g := s.fab.reach s.fab.fmu.turn.armBy
    gives .armingDeadline s g.deadline ∧
    (s.fab.fmu.turn.ungated = [] → g.allArmed = true → answers .armingDeadline s fun h =>
      h.fmu.turn = { s.fab.fmu.turn with deadlinePassed := true } ∧ h.stops = g.stops ∧ h.nis = g.nis) ∧
    (s.fab.fmu.turn.ungated = [] → g.allArmed = false → answers .armingDeadline s fun h =>
      h.fmu.turn = { s.fab.fmu.turn with deadlinePassed := true, disarming := true, fail := some g.armFailure })) ∧
  (∀ (s : State) (u : UnitId), s.fab.live = true → s.fab.fmu.turn.sealed_ = true → s.fab.fmu.turn.disarming = true →
    u ∈ s.fab.armUnits → u ∉ s.fab.fmu.turn.disarmed → s.fab.time.fcc ≤ s.fab.fmu.turn.disarmBy →
    answers (.unitDisarm u) s fun h => h.fmu.turn.disarmed = s.fab.fmu.turn.disarmed ++ [u] ∧ h.nis = s.fab.nis ∧
      h.stops = s.fab.stops) ∧
  (∀ (s : State) (u : UnitId), s.fab.live = true → s.fab.fmu.turn.sealed_ = true → s.fab.fmu.turn.disarming = true →
    s.fab.fmu.turn.lost = false → s.fab.fmu.stop.stopped = false → s.fab.due s.fab.fmu.turn.disarmBy = true →
    s.fab.undisarmed ≠ [] →
    let g := s.fab.reach s.fab.fmu.turn.disarmBy
    g.firstUnit g.undisarmed = some u →
    gives .disarmDeadline s ((g.updTurn fun t => { t with lost := true }).evaluate (mkFault 0 0
      FaultKind.turnDisarmLost.code FaultKind.turnDisarmLost.cls false (g.unitInfo u) g.time.fcc)) ∧
    answers .disarmDeadline s fun h => h.fmu.turn.lost = true ∧ h.fmu.turn.sealed_ = true) ∧
  (∀ s : State, s.fab.live = true →
    (s.fab.fmu.turn.arming = true → s.fab.time.fcc < s.fab.fmu.turn.armBy →
      gives .turnCancel s (((s.fab.updTurn fun t => { t with cancelled := true }).disarm .aborted 0).busReply 0 false) ∧
      answers .turnCancel s fun h => h.bus.err = false ∧
        h.fmu.turn = { s.fab.fmu.turn with cancelled := true, disarming := true, fail := some (.aborted, 0), ungated := [] }) ∧
    (s.fab.fmu.turn.armBy ≤ s.fab.time.fcc → gives .turnCancel s (s.fab.busReply 0 false)))

/-- The outcome of a turn: `OK` once it has swapped, else the status with which it failed once every unit
has confirmed its disarm; the result is published with the turn number, the status and M, the set is no
longer sealed, and the TURN completes. The swap happens at (M, 0); automatic repair issues CHECK, TURN
and DRAIN, whose `DTMO` is a free value (log entry 43). -/
def Obligations.TurnOutcome : Prop :=
  (∀ (f : Fabric) (st : Status) (info : BitVec 48),
    let g := f.turnOutcome st info
    g.fmu.turn.sealed_ = false ∧ g.fmu.turn.epoch = f.fmu.turn.epoch ∧ g.fmu.turn.writable = f.fmu.turn.writable ∧
    g.fmu.res.turn.valid = true ∧ g.fmu.res.turn.seq = f.fmu.res.turn.seq + 1 ∧
    g.fmu.res.turn.words = [mkWord [(20, statusCode st), (0, f.fmu.turn.tseq.toNat)], BitVec.ofNat 32 f.fmu.turn.m.toNat,
      BitVec.ofNat 32 (f.fmu.turn.m.toNat / 2 ^ 32)] ∧ g.nis = f.nis ∧ g.stops = f.stops) ∧
  (∀ s : State, s.fab.live = true → s.fab.fmu.turn.sealed_ = true → s.fab.fmu.turn.swapped = true →
    gives .turnOutcome s (s.fab.unseal.turnOutcome .ok (BitVec.ofNat 48 (s.fab.fmu.turn.tseq.toNat * 2 ^ 32)))) ∧
  (∀ (s : State) (st : Status) (info : BitVec 48), s.fab.live = true → s.fab.fmu.turn.sealed_ = true →
    s.fab.fmu.turn.swapped = false → s.fab.fmu.turn.fail = some (st, info) → s.fab.undisarmed = [] →
    gives .turnOutcome s ((s.fab.unseal.raiseFmu .turnFail
      (s.fab.fmu.turn.m.toNat + statusCode st * 2 ^ 44)).turnOutcome st info)) ∧
  (∀ s : State, s.fab.moving = true → s.fab.fmu.turn.sealed_ = true → s.fab.fmu.turn.swapped = false →
    s.fab.dueAt s.fab.fmu.turn.swapAt = true → gives .turnSwap s (s.fab.instant s.fab.fmu.turn.swapAt) ∧
    (s.fab.fmu.turn.armed = true → s.fab.fmu.stop.stopAt = none → s.fab.fmu.stop.freezeAt = none →
      answers .turnSwap s fun h => h.fmu.turn.swapped = true ∧ h.fmu.turn.tseq = s.fab.fmu.turn.tseq + 1 ∧
        h.fmu.turn.epoch = s.fab.fmu.turn.epoch + 1 ∧ h.fmu.turn.writable = false ∧ h.fmu.drain.actions = [])) ∧
  (∀ s : State, s.fab.moving = true → s.fab.fmu.prog.open_ = true → s.fab.fmu.fault.auto = true →
    s.fab.fmu.fault.repairs ≠ [] → s.fab.fmu.prog.fifo = [] → s.fab.fmu.chan.queue = [] →
    s.fab.fmu.turn.sealed_ = false → s.fab.fmu.turn.writable = true →
    answers .autoRepair s fun h => ∃ dtmo, dtmo < 65536 ∧ h.fmu.prog.fifo =
      [ownOp ocCheck 0, ownOp ocTurn (s.fab.msc + 2), ownOp ocDrain (s.fab.epoch.toNat * 2 ^ 95 + dtmo * 2 ^ 64)])

/-- DRAIN goes on: each sum is published with its epoch, and a zero sum confirms the epoch empty; after
`DTMO` boundaries without one, the largest residue is reported and sampling ends. A port is gated once
its NI is quiet and the epoch it was isolated in is empty, unless a sealed turn powers it on again. -/
def Obligations.DrainGoesOn : Prop :=
  (∀ (s : State) (e : BitVec 1) (n : Nat), s.fab.moving = true → s.fab.fmu.drain.epoch = some e →
    s.fab.fmu.drain.sampled = some n →
    (n ≠ 0 → answers .drainSum s fun h =>
      h.fmu.res.drain.valid = true ∧ h.fmu.res.drain.seq = s.fab.fmu.res.drain.seq + 1 ∧
      h.fmu.res.drain.words = [mkWord [(23, e.toNat), (22, 0), (0, min 65535 n)], s.fab.fmu.drain.where_] ∧
      h.fmu.drain.epoch = some e ∧ h.fmu.drain.sampled = none ∧ h.nis = s.fab.nis ∧ h.stops = s.fab.stops) ∧
    (n = 0 → gives .drainSum s (((s.fab.publishDrain e 0).confirmEmpty e).finishDrain .ok))) ∧
  (∀ (s : State) (e : BitVec 1), s.fab.moving = true → s.fab.fmu.drain.left = 0 → s.fab.fmu.drain.epoch = some e →
    answers .drainTimeout s fun h =>
      h.fmu.drain.epoch = none ∧ h.fmu.drain.sampled = none ∧ h.nis = s.fab.nis ∧ h.stops = s.fab.stops ∧
      ∃ info l, h.fmu.fault.arrived = s.fab.fmu.fault.arrived ++ mkFault 0 0 FaultKind.drainStuck.code
        FaultKind.drainStuck.cls false info s.fab.time.fcc :: l) ∧
  (∀ (s : State) (p : Nat), s.fab.moving = true → s.fab.kind p ≠ 0 → (s.fab.sport p).pwr = .isolating →
    (s.fab.ni p).quiet = true → (s.fab.ni p).pwr.drained = true → s.fab.comesBack p = false →
    gives (.portGate p) s (s.fab.gatePort p) ∧
    answers (.portGate p) s fun h => (h.sport p).pwr = .off ∧ h.ni p = { cfg := (s.fab.ni p).cfg })

/-! ## Scheduled instants (16 R366-R370; 19 R411; 02 R54) -/

/-- At its instant a global stop freezes the package, a counter freeze captures every counter; the
snapshot is published, a resume is set for the milestone boundary of R370, the next milestone boundary
does its bookkeeping, and a retrained link direction comes up or stays withdrawn. -/
def Obligations.ScheduledInstants : Prop :=
  (∀ (s : State) (a : Nat) (c : Bool), s.fab.live = true → s.fab.fmu.stop.stopAt = some (a, c) → s.fab.dueAt a = true →
    gives .globalStop s (s.fab.instant (s.fab.slotOf a)) ∧
    (s.fab.fmu.stop.freezeAt = none → s.fab.fmu.turn.sealed_ = false →
      gives .globalStop s ((s.fab.reach (s.fab.slotOf a)).stopNow (s.fab.slotOf a) c))) ∧
  (∀ (s : State) (a : Nat), s.fab.live = true → s.fab.fmu.stop.freezeAt = some a → s.fab.dueAt a = true →
    gives .counterFreeze s (s.fab.instant (s.fab.slotOf a)) ∧
    (s.fab.fmu.stop.stopAt = none → s.fab.fmu.turn.sealed_ = false →
      gives .counterFreeze s ((s.fab.reach (s.fab.slotOf a)).freezeNow (s.fab.slotOf a)))) ∧
  (∀ (f : Fabric) (a : Nat) (c : Bool), f.fmu.turn.sealed_ = false →
    let g := f.stopNow a c
    g.snap = some f.view ∧ g.fmu.stop.stopped = true ∧ g.fmu.stop.cause = c ∧ g.fmu.stop.lastAt = a ∧
    g.fmu.stop.stopAt = none ∧ g.fmu.stop.publish = true ∧
    (∀ p, g.ni p = { f.ni p with tsq := { (f.ni p).tsq with fip := {} } }) ∧ g.stops = f.stops ∧ g.time = f.time) ∧
  (∀ (f : Fabric) (a : Nat),
    let g := f.freezeNow a
    g.frz = some f.view ∧ g.fmu.stop.freezeAt = none ∧ g.fmu.res.frz.valid = true ∧
    g.fmu.res.frz.seq = f.fmu.res.frz.seq + 1 ∧ g.nis = f.nis ∧ g.stops = f.stops ∧ g.time = f.time) ∧
  (∀ s : State, s.fab.live = true → s.fab.fmu.stop.publish = true →
    answers .snapshotPublish s fun h =>
      h.fmu.stop.publish = false ∧ h.fmu.res.snap.valid = true ∧ h.fmu.res.snap.seq = s.fab.fmu.res.snap.seq + 1 ∧
      h.fmu.res.snap.words =
        [mkWord [(23, b2n s.fab.fmu.stop.cause),
          (0, ((s.fab.snap.map (·.fcc)).getD s.fab.fmu.stop.lastAt) / msLen % 65536)]] ∧
      h.nis = s.fab.nis ∧ h.stops = s.fab.stops) ∧
  (∀ s : State, s.fab.live = true →
    (s.fab.fmu.stop.stopped = true → s.fab.fmu.stop.resumeAt = none →
      gives .resume s ((s.fab.updFmu fun m => { m with stop := { m.stop with resumeAt := some s.fab.haltAt } }).busReply 0 false)) ∧
    (s.fab.fmu.stop.stopped = false → gives .resume s (s.fab.busReply 0 false))) ∧
  (∀ s : State, s.fab.live = true → gives .milestoneBoundary s s.fab.milestone ∧
    answers .milestoneBoundary s fun h =>
      h.time.booked = s.fab.time.booked + 1 ∧ (s.fab.time.booked + 1) * msLen ≤ h.time.fcc) ∧
  (∀ (s : State) (t o x : Nat) (failed : List Nat), s.fab.moving = true → t < nStops s.fab.variant → o < 4 →
    (s.fab.stopU t).spare.bypass = false → (s.fab.txOf t o).retrain = true →
    let r := s.fab.repairWires (s.fab.nbr t o) o (s.fab.bridge t o) failed
    (r.2 = false → gives (.retrainComplete t o true failed x) s (r.1.linkEnters t o (r.1.upState t o) x) ∧
      answers (.retrainComplete t o true failed x) s fun h =>
        (h.txOf t o).state = r.1.upState t o ∧ (h.txOf t o).retrain = false ∧ (h.txOf t o).retry = [] ∧ h.nis = s.fab.nis) ∧
    gives (.retrainComplete t o false failed x) s (r.1.retrainFailed t o))

/-! ## Faults (16) -/

/-- A fault leaves an NI under the NI's control credit as a FAULT packet for the FMU's port, on the link
to its stop; a die slice's leaves through the NI at the slice's port, and a stop's is routed by the stop.
The packet's DATA area spells the record. A FAULT packet that reaches the FMU's port is consumed and its
record waits to be evaluated; the FMU evaluates the oldest. A write of `FORCE` raises the named kind; the
pulse on FAB_ERR_N ends. -/
def Obligations.FaultPath : Prop :=
  (∀ (s : State) (p rp dir : Nat) (fwd : Bool) (r : FaultRec) (rest : List FaultRec), s.fab.moving = true →
    s.fab.fmu.prog.open_ = true → 65536 ≤ s.fab.mgtCredit (.ni p) → s.fab.mgtPortFree p = true →
    (s.fab.fltOf (.ni p)).waiting = r :: rest →
    let x := faultPkt (s.fab.node p) p r
    let y : Packet := { x with hdr := Header.seal { x.hdr with rport := BitVec.ofNat 10 rp, epoch := s.fab.epoch } }
    s.fab.resolve p x.hdr = .go rp fwd dir → dir ≠ 3 →
    answers (.faultSend (.ni p)) s fun h =>
      (h.fltOf (.ni p)).waiting = rest ∧ h.mgtCredit (.ni p) + 65536 = s.fab.mgtCredit (.ni p) ∧
      (∃ z, (h.ni p).tx.retry = (s.fab.ni p).tx.retry ++ [z] ∧ z.d = Header.toBits y.hdr ++ Packet.headPay y) ∧
      h.fmu = s.fab.fmu ∧ h.stops = s.fab.stops) ∧
  (∀ (s : State) (d : Nat) (r : FaultRec) (rest : List FaultRec), s.fab.moving = true → s.fab.fmu.prog.open_ = true →
    65536 ≤ s.fab.mgtCredit (.slice d) → s.fab.mgtPortFree (slicePort d) = true →
    (s.fab.fltOf (.slice d)).waiting = r :: rest →
    gives (.faultSend (.slice d)) s (s.fab.niFault (slicePort d) (.slice d) r)) ∧
  (∀ (s : State) (t : Nat) (r : FaultRec) (rest : List FaultRec), s.fab.moving = true → s.fab.fmu.prog.open_ = true →
    65536 ≤ s.fab.mgtCredit (.stop t) → (s.fab.fltOf (.stop t)).waiting = r :: rest →
    gives (.faultSend (.stop t)) s ((s.fab.takeFlt (.stop t)).stopAnswer t (faultPkt (s.fab.node (4 * t)) (4 * t) r))) ∧
  (∀ r : FaultRec, faultOf (faultArea r) = r) ∧
  (∀ (f : Fabric) (q : QPkt) (rest : List QPkt), (f.ni fmuPort).vq.get 0 [] = q :: rest → q.tailIn = true →
    q.hdr.kind = 11 → Header.checks q.hdr = true → q.truncated = false → badHeader q.hdr = false →
    f.fmuTakes.fmu.fault.arrived = f.fmu.fault.arrived ++ [faultOf (QPkt.packet q).area]) ∧
  (∀ (s : State) (r : FaultRec) (rest : List FaultRec), s.fab.live = true → s.fab.fmu.fault.arrived = r :: rest →
    gives .faultEvaluate s ((s.fab.updFmu fun m => { m with fault := { m.fault with arrived := rest } }).evaluate r) ∧
    (s.fab.fmu.fault.log.length < 1024 → answers .faultEvaluate s fun h =>
      ∃ le, h.fmu.fault.log = s.fab.fmu.fault.log ++ [le] ∧ { le.rec_ with sev := r.sev } = r ∧
        le.tabSev = (s.fab.sevWord r.fkind.toNat).extractLsb' 0 3 ∧ le.seq = s.fab.fmu.fault.logSeq ∧
        h.fmu.fault.logSeq = s.fab.fmu.fault.logSeq + 1)) ∧
  (∀ (s : State) (u : UnitId) (w : Word), s.fab.live = true →
    (∀ p, u = .ni p → s.fab.kind p ≠ 0 ∧ s.fab.powered p = true) → (∀ t, u = .stop t → t < nStops s.fab.variant) →
    gives (.faultForce u w) s ((s.fab.force u w).busReply 0 false)) ∧
  (∀ (f : Fabric) (w : Word) (k : FaultKind), bit w 31 = true → kindOfCode (fld w 7 0) = some k → fmuKinds.contains k = true →
    (f.force .fmu w).fmu.fault.arrived = f.fmu.fault.arrived ++ [mkFault 0 0 k.code k.cls true (fld w 11 8) f.time.fcc]) ∧
  (∀ (f : Fabric) (w : Word) (p : Nat) (k : FaultKind), bit w 31 = true → kindOfCode (fld w 7 0) = some k →
    (niKinds (f.kind p)).contains k = true →
    (f.fmu.stop.stopped = true → ((f.force (.ni p) w).ni p).flt.held = (f.ni p).flt.held ++ [w]) ∧
    (f.fmu.stop.stopped = false → f.fmu.prog.open_ = true → ((f.force (.ni p) w).ni p).flt.waiting =
      (f.ni p).flt.waiting ++ [mkFault 3 p k.code k.cls true (fld w 11 8) (f.fccOf (dieOfPort p))])) ∧
  (∀ (s : State) (t : Nat), s.fab.live = true → s.fab.fmu.pin.pulseEnd = some t → s.fab.due t = true →
    answers .fabErrPulseEnd s fun h => h.fmu.pin.pulseEnd = none ∧ h.fmu.pin.pulses = s.fab.fmu.pin.pulses)

/-! ## Time (02) -/

/-- A count frame that passes its checks is kept for its tick; any other is discarded, and the offset and
the count of the frames it would have replaced stay. An in-phase tick ends the holdover; an out-of-phase
tick records its phase and never moves the count. -/
def Obligations.FramesAndTicks : Prop :=
  (∀ (s : State) (v : BitVec 48), s.fab.live = true →
    let m := v.extractLsb' 8 40
    (crc8 m = v.extractLsb' 0 8 → answers (.countFrame v false) s fun h =>
      h.taux.frame = some m ∧ h.time.extValid = true ∧ h.time.ext = m ∧ h.time.fcc = s.fab.time.fcc ∧
      h.time.booked = s.fab.time.booked ∧
      h.time.offset = (if s.fab.time.aligned then offsetOf m.toNat (s.fab.msc + 1) else s.fab.time.offset) ∧
      h.nis = s.fab.nis ∧ h.stops = s.fab.stops) ∧
    (∀ late, (late = true ∨ crc8 m ≠ v.extractLsb' 0 8) → answers (.countFrame v late) s fun h =>
      h.taux.frame = s.fab.taux.frame ∧ h.time = { s.fab.time with extValid := false } ∧
      h.fmu.fault.arrived = s.fab.fmu.fault.arrived ++ [mkFault 0 0 FaultKind.mscFrame.code FaultKind.mscFrame.cls false
        s.fab.msc s.fab.time.fcc] ∧ h.nis = s.fab.nis ∧ h.stops = s.fab.stops)) ∧
  (∀ (s : State) (phase : Int), s.fab.live = true → s.fab.time.aligned = true → s.fab.taux.align.phase ≠ .waitTick →
    (s.fab.time.inPhase phase = true → answers (.msTick phase) s fun h =>
      h.time = { s.fab.time with holdover := false, missRun := 0, phaseErr := 0 } ∧ h.taux.tickSeen = true ∧
      h.taux.frame = none ∧ h.fmu = s.fab.fmu) ∧
    (s.fab.time.inPhase phase = false → answers (.msTick phase) s fun h =>
      h.time = { s.fab.time with phaseErr := clampAbs 32767 phase } ∧ h.taux.tickSeen = s.fab.taux.tickSeen ∧
      h.fmu.fault.arrived = s.fab.fmu.fault.arrived ++ [mkFault 0 0 FaultKind.tickPhase.code FaultKind.tickPhase.cls false
        (signedBits 16 (clampAbs 32767 phase)) s.fab.time.fcc])) ∧
  (∀ (t : Time) (phase : Int), t.inPhase phase = true ↔ -(max 2 (t.phaseWin.toNat : Int)) ≤ phase ∧ phase ≤ max 2 (t.phaseWin.toNat : Int))

/-- The tree a slice uses: with no substitution, tree A while it is in phase; tree B where only it is in
phase, or where the two differ outside the window; of one marker the tree that carried it. A substitution
keeps its tree; `TREE_FORCE_B` gives tree B. -/
def Obligations.TreeMarkerChoosesItsTree : Prop :=
  (∀ (s : State) (d : Nat), s.fab.live = true → s.fab.time.aligned = true → d < nDies s.fab.variant →
    (∀ r ∈ s.fab.fmu.spares, ¬ (r.1 = 6 ∧ r.2.1 = d)) →
    let win (x : Int) : Bool := s.fab.time.inPhase x
    (∀ x y, answers (.treeMarker d (some x) (some y)) s fun h =>
      (h.die d).treeB = (if win x then false else if win y || x != y then true else (s.fab.die d).treeB)) ∧
    (∀ x, answers (.treeMarker d (some x) none) s fun h => (h.die d).treeB = false) ∧
    (∀ y, answers (.treeMarker d none (some y)) s fun h => (h.die d).treeB = true) ∧
    gives (.treeMarker d none none) s s.fab) ∧
  (∀ (s : State) (d : Nat) (a b : Option Int) (r : Nat × Nat × Nat × Word), s.fab.live = true →
    s.fab.time.aligned = true → d < nDies s.fab.variant →
    s.fab.fmu.spares.find? (fun r => r.1 == 6 && r.2.1 == d) = some r →
    answers (.treeMarker d a b) s fun h => (h.die d).treeB = bit r.2.2.2 0 ∧ h.fmu = s.fab.fmu ∧ h.time = s.fab.time) ∧
  (∀ (f : Fabric) (d : Nat), f.treeOf d = (f.time.treeForceB || (f.die d).treeB))

/-- Alignment: the first labelled tick loads the count, then each die echoes and exchanges time stamps;
the skew of four exchanges within 2 fc is published and the next die follows, and the last one sets
`ALIGNED`. An echo that times out on both trees fails; no frame within the time stops bring-up. -/
def Obligations.AlignmentSteps : Prop :=
  (∀ (s : State) (v : BitVec 40), s.fab.live = true → s.fab.boot.fail = false → s.fab.taux.align.phase = .waitTick → s.fab.taux.frame = some v →
    answers .alignStart s fun h => h.time.fcc = v.toNat * 2 ^ 20 ∧ h.time.booked = v.toNat ∧ h.time.offset = 0 ∧
      h.taux.frame = none ∧ (1 < nDies s.fab.variant → h.taux.align.phase = .echo 1 ∧ h.time.aligned = s.fab.time.aligned) ∧
      (nDies s.fab.variant ≤ 1 → h.taux.align.phase = .done ∧ h.time.aligned = true)) ∧
  (∀ (s : State) (d a b c : Nat), s.fab.live = true → s.fab.taux.align.phase = .echo d → a ≤ b → b - a ≤ 4096 → b ≤ c →
    answers (.alignEcho d a b c) s fun h => h.taux.align.phase = .exchange d ∧ h.taux.align.rtt = b - a ∧
      h.taux.align.thetas = [] ∧ h.taux.align.load = c + (b - a) / 2 ∧ h.time.skew.get d 0 = 0) ∧
  (∀ (s : State) (d : Nat), s.fab.live = true → s.fab.taux.align.phase = .echo d →
    (s.fab.taux.align.treeB = false → answers (.alignEchoTimeout d) s fun h =>
      h.taux.align.treeB = true ∧ h.taux.align.phase = .echo d) ∧
    (s.fab.taux.align.treeB = true → answers (.alignEchoTimeout d) s fun h => h.taux.align.phase = .idle ∧
      (s.fab.boot.latch = 4 → h.boot.fail = true ∧ h.boot.reason = 0x05 ∧ h.boot.die = BitVec.ofNat 2 d))) ∧
  (∀ (s : State) (d : Nat) (t1 t2 t3 t4 : Int), s.fab.live = true → s.fab.taux.align.phase = .exchange d →
    let al := s.fab.taux.align
    let ts := al.thetas ++ [theta t1 t2 t3 t4]
    (ts.length < 4 → answers (.timestampExchange d t1 t2 t3 t4) s fun h =>
      h.taux.align.thetas = ts ∧ h.taux.align.phase = .exchange d) ∧
    (4 ≤ ts.length → 2 < thetaMax ts → al.attempts < 3 → answers (.timestampExchange d t1 t2 t3 t4) s fun h =>
      h.taux.align.thetas = [] ∧ h.taux.align.attempts = al.attempts + 1 ∧ h.taux.align.phase = .exchange d ∧
      ∃ k : Int, h.time.skew.get d 0 = k - thetaMedian ts ∧ k.natAbs = thetaMax ts ∧ k ∈ ts) ∧
    (4 ≤ ts.length → 2 < thetaMax ts → 3 ≤ al.attempts → answers (.timestampExchange d t1 t2 t3 t4) s fun h =>
      h.taux.align.phase = .idle ∧ (s.fab.boot.latch = 4 → h.boot.fail = true ∧ h.boot.reason = 0x03)) ∧
    (4 ≤ ts.length → thetaMax ts ≤ 2 → d ≠ 0 → answers (.timestampExchange d t1 t2 t3 t4) s fun h =>
      ∃ k : Int, h.time.skew.get d 0 = k ∧ k.natAbs = thetaMax ts ∧ (k ∈ ts ∨ thetaMax ts = 0) ∧
        (h.taux.skews.get d {}).valid = true ∧ (h.taux.skews.get d {}).seq = (s.fab.taux.skews.get d {}).seq + 1 ∧
        (h.taux.skews.get d {}).rtt = BitVec.ofNat 16 al.rtt)) ∧
  (∀ s : State, s.fab.live = true → s.fab.boot.latch = 4 → s.fab.boot.fail = false → s.fab.taux.align.phase = .waitTick →
    answers .alignFrameTimeout s fun h => h.boot.fail = true ∧ h.boot.reason = 0x02 ∧ h.boot.latch = 4 ∧
      h.time = s.fab.time) ∧
  (∀ s : State, s.fab.live = true →
    (s.fab.fmu.turn.sealed_ = false → s.fab.fmu.stop.stopped = true → answers .realign s fun h =>
      h.time = { s.fab.time with aligned := false } ∧ h.taux.align.phase = .waitTick ∧ h.taux.align.attempts = 1 ∧
      h.taux.frame = s.fab.taux.frame ∧ h.fmu.dig.dsrValid = false ∧ h.bus.err = false) ∧
    (s.fab.fmu.turn.sealed_ = true → answers .realign s fun h =>
      h.time = s.fab.time ∧ h.taux = s.fab.taux ∧ h.fmu.fault.arrived = s.fab.fmu.fault.arrived ++
        [mkFault 0 0 FaultKind.timeRefused.code FaultKind.timeRefused.cls false s.fab.msc s.fab.time.fcc]))

/-! ## Reset and bring-up (18) -/

/-- The values that reset leaves (18 R389): every unit and register cleared, with the counts, the FIFO,
the spare map and the log; what the package's pins and latch say stays. -/
def Obligations.ResetClearsTheFabric : Prop :=
  (∀ f : Fabric,
    let g := f.resetAll
    g.nis = [] ∧ g.stops = [] ∧ g.fmu = {} ∧ g.time = {} ∧ g.taux = {} ∧ g.bus = {} ∧ g.snap = none ∧ g.frz = none ∧
    g.variant = f.variant ∧ g.boot.inReset = true ∧ g.boot.latch = f.boot.latch ∧ g.boot.pg = f.boot.pg ∧
    (∀ d, g.die d = { ({} : DieSlice) with pllLocked := (f.die d).pllLocked })) ∧
  (∀ s : State, answers .fabRstAssert s fun h => h.boot.inReset = true ∧ h.boot.rstN = false ∧ h.nis = [] ∧ h.stops = [] ∧
    h.fmu = {} ∧ h.time = {} ∧ h.boot.fail = false ∧ h.boot.latch = (if s.fab.boot.pg ≠ 15 then 1 else
      if s.fab.pllsLocked = true then 3 else 2)) ∧
  (∀ (s : State) (d : Nat), d < nDies s.fab.variant → answers (.fabPgChange d false) s fun h =>
    h.boot.inReset = true ∧ h.nis = [] ∧ h.stops = [] ∧ h.fmu = {} ∧ h.time = {} ∧ (h.die d).pllLocked = false ∧
    h.boot.pg = s.fab.boot.pg &&& ~~~(BitVec.ofNat 4 (2 ^ d)))

/-- Reset is released once FAB_RST_N and every FAB_PG bit are high and every PLL has locked, and bring-up
goes on to step 4; a PLL that does not lock in time stops it at step 2, and one that loses lock while the
fabric runs puts it in reset with 0xF in the latch until FAB_RST_N is asserted. -/
def Obligations.ClocksAndRelease : Prop :=
  (∀ s : State,
    (s.fab.boot.inReset = true → s.fab.railsGood = true → s.fab.pllsLocked = true → s.fab.boot.latch ≠ 15 →
      answers .fabRstRelease s fun h =>
        h.boot.inReset = false ∧ h.boot.rstN = true ∧ h.boot.fail = s.fab.boot.fail ∧
        h.boot.latch = (if s.fab.boot.fail = true then s.fab.boot.latch else 4) ∧ h.nis = s.fab.nis ∧ h.time = s.fab.time) ∧
    ((s.fab.railsGood = false ∨ s.fab.pllsLocked = false ∨ s.fab.boot.latch = 15) → answers .fabRstRelease s fun h =>
      h.boot.inReset = s.fab.boot.inReset ∧ h.boot.rstN = true ∧ h.boot.latch = s.fab.boot.latch)) ∧
  (∀ (s : State) (d : Nat), d < nDies s.fab.variant → s.fab.boot.inReset = true → s.fab.railsGood = true →
    answers (.pllLock d) s fun h => (h.die d).pllLocked = true ∧ (s.fab.boot.rstN = false → h.boot.inReset = true) ∧ h.nis = s.fab.nis) ∧
  (∀ (s : State) (d : Nat), d < nDies s.fab.variant → s.fab.boot.inReset = true → s.fab.railsGood = true →
    (s.fab.die d).pllLocked = false → s.fab.boot.latch = 2 → answers (.pllLockTimeout d) s fun h =>
      h.boot.fail = true ∧ h.boot.reason = 0x01 ∧ h.boot.die = BitVec.ofNat 2 d ∧ h.boot.latch = 2 ∧ h.boot.inReset = true) ∧
  (∀ (s : State) (d : Nat), d < nDies s.fab.variant → s.fab.boot.inReset = false → answers (.pllUnlock d) s fun h =>
    h.boot.inReset = true ∧ h.boot.latch = 15 ∧ h.boot.fail = true ∧ (h.die d).pllLocked = false ∧ h.nis = [] ∧
    h.stops = [] ∧ h.fmu = {} ∧ h.time = {}) ∧
  (∀ (s : State) (d : Nat), d < nDies s.fab.variant → s.fab.boot.inReset = true → answers (.pllUnlock d) s fun h =>
    h.boot.inReset = true ∧ (h.die d).pllLocked = false ∧ h.nis = s.fab.nis) ∧
  (∀ (s : State) (d : Nat), d < nDies s.fab.variant → s.fab.boot.inReset = true → s.fab.boot.rstN = false →
    answers (.fabPgChange d true) s fun h =>
      h.boot.inReset = true ∧ h.boot.pg = s.fab.boot.pg ||| BitVec.ofNat 4 (2 ^ d) ∧ h.nis = s.fab.nis)

/-- Training of a ring link: the pattern period maps failed wires to spares, a good idle period brings the
direction up, three failed attempts stop bring-up at step 5. Four words written to the program FIFO make an
op, lowest word first, and a word that finds it full sets the overflow bit. -/
def Obligations.TrainingAndProgram : Prop :=
  (∀ (s : State) (t o x : Nat) (failed : List Nat) (good : Bool), s.fab.live = true → s.fab.time.aligned = true →
    s.fab.boot.latch = 5 → s.fab.boot.fail = false → t < nStops s.fab.variant → o < 4 →
    (s.fab.txOf t o).state = .training →
    let r := s.fab.nbr t o
    let w := (s.fab.stopU r).wear.get o {}
    let m := mapWires (s.fab.bridge t o) failed w.spares
    (w.phase = 0 → answers (.linkTrainPhaseEnd t o failed good x) s fun h =>
      let y := (h.stopU r).wear.get o {}
      y.phase = 1 ∧ y.spares = m.1 ∧ y.unmapped = m.2 ∧ h.nis = s.fab.nis) ∧
    (w.phase ≠ 0 → (good = false ∨ w.unmapped = true) → answers (.linkTrainPhaseEnd t o failed good x) s fun h =>
      let y := (h.stopU r).wear.get o {}
      y.phase = 0 ∧ y.attempt = w.attempt + 1 ∧ (h.boot.fail = true ↔ 3 ≤ w.attempt + 1) ∧
      (3 ≤ w.attempt + 1 → h.boot.reason = 0x04 ∧ h.boot.latch = 5)) ∧
    (w.phase ≠ 0 → good = true → w.unmapped = false → answers (.linkTrainPhaseEnd t o failed good x) s fun h =>
      (h.txOf t o).state = .up ∧ (h.txOf t o).nextSeq = 0 ∧ (h.txOf t o).retry = [] ∧ h.nis = s.fab.nis)) ∧
  (∀ (s : State) (w : Word), s.fab.live = true → answers (.fmuProgWrite w) s fun h =>
    let p := s.fab.fmu.prog
    h.bus.err = false ∧
    (256 ≤ p.fifo.length → h.fmu.prog = { p with ovf := true }) ∧
    (p.fifo.length < 256 → ∀ a b c, p.part = [a, b, c] →
      h.fmu.prog = { p with part := [], fifo := p.fifo ++ [w ++ c ++ b ++ a] }) ∧
    (p.fifo.length < 256 → p.part.length < 3 → h.fmu.prog = { p with part := p.part ++ [w] }))

/-! ## The management bus (20) -/

/-- While the fabric is in reset every access is refused and recorded nowhere: the reply is an error and
nothing else changes (20 R427 row 1; 18 R389). -/
def Obligations.AccessesInReset : Prop :=
  ∀ (s : State), s.fab.boot.inReset = true →
    let no (c : Instr) : Prop := gives c s (s.fab.busReply 0 true)
    (∀ a w, no (.registerWrite a w)) ∧ no .dsrRead ∧ no .fccLoRead ∧
    (∀ u w, mappedUnit u = true → no (.tblDataAccess u w)) ∧
    (∀ a, s.fab.isLo a = true → no (.counterLoRead a)) ∧ (∀ a, isRecord a = true → no (.counterRecordRead a)) ∧
    (∀ w, no (.fmuProgWrite w)) ∧ (∀ u w, no (.faultForce u w)) ∧ no .realign ∧ no .turnCancel ∧ no .resume ∧
    (∀ d w, no (.traceRptrWrite d w)) ∧ (∀ d, no (.skewAck d)) ∧ no .digestAck ∧ no .ndetAck ∧ no .chkAck ∧
    no .turnStatAck ∧ no .drainStatAck ∧ no .flogAck ∧ no .snapStatAck ∧ no .wearLastAck ∧ no .frzAck ∧ no .boardAck ∧
    no .busErrAck

/-- The rules of an access, the first that applies: misaligned and unmapped accesses and those not
answered in time are refused with their cause and recorded; a block of an absent unit reads 0 and ignores
writes; any other access is performed. -/
def Obligations.AccessRules : Prop :=
  ∀ (s : State) (a : Nat) (w : Word), s.fab.live = true →
    let refused (h : Fabric) (cause : BitVec 2) : Prop :=
      h.bus = { s.fab.bus with
        rdata := 0, err := true, errValid := true, errSeq := s.fab.bus.errSeq + 1, errCause := cause, errWr := true
        errCount := s.fab.bus.errCount + 1, errAddr := BitVec.ofNat 32 a } ∧
      h.nis = s.fab.nis ∧ h.stops = s.fab.stops ∧ h.dies = s.fab.dies ∧ h.fmu = s.fab.fmu ∧ h.time = s.fab.time
    (a % 4 ≠ 0 → answers (.registerWrite a w) s fun h => refused h 1) ∧
    (a % 4 = 0 → blockOf a = none → answers (.registerWrite a w) s fun h => refused h 0) ∧
    (∀ b off, a % 4 = 0 → blockOf a = some (b, off) → s.fab.present b = false →
      gives (.registerWrite a w) s (s.fab.busReply 0 false)) ∧
    (∀ b off, a % 4 = 0 → blockOf a = some (b, off) → s.fab.present b = true →
      gives (.registerWrite a w) s ((s.fab.writeReg b off w).busReply 0 false)) ∧
    (a = 0x2C → answers (.registerWrite a w) s fun h =>
      h.bus = { s.fab.bus with scratch := w, rdata := 0, err := false } ∧ h.fmu = s.fab.fmu ∧ h.nis = s.fab.nis ∧
      h.stops = s.fab.stops) ∧
    (∀ n off, a % 4 = 0 → (blockOf a = some (.stop n, off) ∨ blockOf a = some (.ni n, off)) →
      answers (.busAccessTimeout a true) s fun h => refused h 2)

/-- Reads that capture: FCC and the wide counters give coherent pairs, a counter record and the DSR are
captured whole by the read of their first word, and an access to the data register of a window moves its
index on by one (02 R41; 07 R181; 14 R324; 19 R410; 20 R437). -/
def Obligations.CapturingReads : Prop :=
  ∀ s : State, s.fab.live = true →
    (answers .fccLoRead s fun h => h.time.fccHold ++ h.bus.rdata = fccWord s.fab.time.fcc ∧ h.bus.err = false ∧
      h.time = { s.fab.time with fccHold := h.time.fccHold } ∧ h.nis = s.fab.nis ∧ h.fmu = s.fab.fmu) ∧
    (answers .dsrRead s fun h => h.fmu.dig.dsrHold = (List.range 16).map s.fab.dsrWord ∧ h.bus.err = false ∧
      h.nis = s.fab.nis ∧ h.stops = s.fab.stops ∧ h.fmu.res = s.fab.fmu.res) ∧
    (∀ p i, p < nPorts s.fab.variant → i < 256 → s.fab.kind p = 1 → s.fab.powered p = true →
      answers (.counterRecordRead (0x400000 + p * 0x4000 + 0x2000 + 32 * i)) s fun h =>
        (h.ni p).tsq.ctrHold = CtrRec.words (((s.fab.ni p).tsq.ctrs.get i {}).seen s.fab.time.fcc) ∧ (h.ni p).tsq.ctrHoldAt = some i ∧
        (h.ni p).tsq.ctrs = (s.fab.ni p).tsq.ctrs ∧ h.bus.err = false) ∧
    (∀ i, i < 64 → answers (.counterRecordRead (0x2000 + 32 * i)) s fun h =>
      h.fmu.ctrHold = CtrRec.words ((s.fab.fmu.ctrs.get i {}).seen s.fab.time.fcc) ∧ h.fmu.ctrHoldAt = some i ∧ h.bus.err = false) ∧
    (∀ d, d < nDies s.fab.variant → answers (.counterLoRead (0x10000 + d * 0x10000 + 0x20)) s fun h =>
      (h.die d).fccHold = (fccWord (s.fab.fccOf d)).extractLsb' 32 32 ∧ h.bus.err = false) ∧
    (∀ (p off c : Nat), p < nPorts s.fab.variant → off < 0x4000 → off % 4 = 0 → off ≠ 0x44 → s.fab.kind p ≠ 0 →
      s.fab.powered p = true → s.fab.frz = none → (s.fab.ni p).wideCtr s.fab.time.cycles (s.fab.kind p) off = some c →
      answers (.counterLoRead (0x400000 + p * 0x4000 + off)) s fun h =>
        (h.ni p).obs.loHold.get off 0 = BitVec.ofNat 32 (c / 2 ^ 32) ∧ h.bus.err = false) ∧
    (∀ w : Word, answers (.tblDataAccess .fmu (some w)) s fun h =>
      h.fmu.win.sel = withIndex s.fab.fmu.win.sel (fld s.fab.fmu.win.sel 23 0 + 1) ∧ h.bus.err = false) ∧
    (answers (.tblDataAccess .fmu none) s fun h =>
      h.fmu.win.sel = withIndex s.fab.fmu.win.sel (fld s.fab.fmu.win.sel 23 0 + 1) ∧ h.bus.err = false ∧
      h.nis = s.fab.nis ∧ h.stops = s.fab.stops)

/-- An acknowledge consumes its result: it reads not valid, and its sequence number, its words and every
other result stay. The log presents its next entry, the board its filling board, and a freeze releases
the frozen view. -/
def Obligations.AcknowledgesConsume : Prop :=
  ∀ s : State, s.fab.live = true →
    let f := s.fab
    let r := f.fmu.res
    let only (c : Instr) (r' : Results) : Prop :=
      gives c s ((f.updRes fun _ => r').busReply 0 false)
    only .digestAck { r with dig := { r.dig with valid := false } } ∧
    only .ndetAck { r with ndet := { r.ndet with valid := false } } ∧
    only .chkAck { r with chk := { r.chk with valid := false } } ∧
    only .turnStatAck { r with turn := { r.turn with valid := false } } ∧
    only .drainStatAck { r with drain := { r.drain with valid := false } } ∧
    only .snapStatAck { r with snap := { r.snap with valid := false } } ∧
    only .wearLastAck { r with wear := { r.wear with valid := false } } ∧
    (answers .frzAck s fun h => h.frz = none ∧ h.fmu.res = { r with frz := { r.frz with valid := false } } ∧ h.nis = f.nis) ∧
    (f.fmu.boards.filling = none → only .boardAck { r with board := { r.board with valid := false } }) ∧
    (∀ ms b, f.fmu.boards.filling = some (ms, b) → answers .boardAck s fun h =>
      h.fmu.boards.presented = b ∧ h.fmu.boards.filling = none ∧ h.fmu.res.board.valid = true ∧
      h.fmu.res.board.seq = r.board.seq + 1) ∧
    (f.fmu.fault.log = [] → gives .flogAck s (f.busReply 0 false)) ∧
    (∀ e rest, f.fmu.fault.log = e :: rest → answers .flogAck s fun h =>
      h.fmu.fault.log = rest ∧ h.fmu.fault.lastLog = some e ∧
      h.fmu.fault.headSeq = (if rest = [] then f.fmu.fault.headSeq else f.fmu.fault.headSeq + 1) ∧
      (∀ g, e.gen = some g → h.fmu.fault.esc = f.fmu.fault.esc.map fun x => if x.gen == g then { x with unack := x.unack - 1 } else x)) ∧
    (answers .busErrAck s fun h => h.bus = { f.bus with errValid := false, rdata := 0, err := false } ∧ h.fmu = f.fmu) ∧
    (∀ d, d < nDies f.variant → answers (.skewAck d) s fun h =>
      h.taux.skews.get d {} = { f.taux.skews.get d {} with valid := false } ∧ h.fmu = f.fmu)

/-! ## Published results and samples (12 R288; 14 R329; 06 R144; 19) -/

/-- A finished digest is published with its words and the computation of the last event during it
begins; the oldest nondeterminism capture is published; queues and channels are sampled and meters
refilled at their instants; the trace read pointer moves up to the write pointer. -/
def Obligations.PublicationsAndSamples : Prop :=
  (∀ (s : State) (r : DigRun), s.fab.live = true → s.fab.fmu.dig.running = some r →
    answers .digestPublish s fun h => h.fmu.res.dig.valid = true ∧ h.fmu.res.dig.seq = s.fab.fmu.res.dig.seq + 1 ∧
      h.fmu.res.dig.words = r.words ∧ h.fmu.dig.running = s.fab.fmu.dig.waiting ∧ h.fmu.dig.waiting = none ∧
      h.nis = s.fab.nis ∧ h.stops = s.fab.stops) ∧
  (∀ (s : State) (src : Bool) (ms : Nat) (ties arr : Word) (rest : List (Bool × Nat × Word × Word)), s.fab.moving = true →
    s.fab.fmu.dig.ndetCaps = (src, ms, ties, arr) :: rest →
    answers .ndetPublish s fun h => h.fmu.res.ndet.valid = true ∧ h.fmu.res.ndet.seq = s.fab.fmu.res.ndet.seq + 1 ∧
      h.fmu.res.ndet.words = [mkWord [(23, b2n src), (0, ms % 65536)], ties, arr] ∧ h.fmu.dig.ndetCaps = rest) ∧
  (∀ s : State, s.fab.moving = true → s.fab.due s.fab.sampleAt = true →
    gives .queueSample s (s.fab.reach s.fab.sampleAt).sampleAll ∧
    answers .queueSample s fun h => h.taux.sampled = some (s.fab.reach s.fab.sampleAt).time.fcc ∧ h.fmu = s.fab.fmu) ∧
  (∀ (s : State) (p c : Nat),
    let d := s.fab.niReg (slicePort (dieOfPort p)) 0x1310
    let n := samplePeriod d
    let ph := samplePhase p c d
    let t := s.fab.time.fcc
    let a := if t % n ≤ ph then t / n * n + ph else (t / n + 1) * n + ph
    s.fab.moving = true → s.fab.due (s.fab.slotOf a) = true →
    t ≤ a ∧ a % n = ph % n ∧ gives (.opSample p c) s ((s.fab.reach (s.fab.slotOf a)).opSample p c) ∧
    (hasTrace s.fab.variant = true → bit d 29 = true → s.fab.kind p = 1 → s.fab.powered p = true → c < 16 →
      Chan.stateCode (s.fab.chan (.tsq p c)) ≠ 0 → (s.fab.ni p).obs.traceQ.length < 4 →
      answers (.opSample p c) s fun h => ∃ r : BitVec 256, (h.ni p).obs.traceQ = (s.fab.ni p).obs.traceQ ++ [r] ∧
        r.extractLsb' 252 4 = 4 ∧ r.extractLsb' 172 4 = BitVec.ofNat 4 c ∧ r.extractLsb' 176 12 = BitVec.ofNat 12 p)) ∧
  (∀ s : State,
    let t := (s.fab.time.fcc + 256) / 512 * 512 + 256
    s.fab.moving = true → s.fab.due t = true →
    t % 512 = 256 ∧ s.fab.time.fcc ≤ t ∧
    gives .meterRefill s ((s.fab.portIds.filter fun p => s.fab.kind p != 0).foldl (fun g p => g.refill p) (s.fab.reach t)) ∧
    (∀ p d, p < nPorts s.fab.variant → s.fab.kind p ≠ 0 → d < 64 → (s.fab.ni p).inj.meterOld = none →
      let w (i : Nat) : Word := s.fab.niTab p 2 (4 * d + i)
      answers .meterRefill s fun h =>
        (h.ni p).inj.tc.get d 0 = min (fld (w 2) 31 16 * 1024) ((s.fab.ni p).inj.tc.get d 0 + 16 * fld (w 1) 31 16) ∧
        (h.ni p).inj.tp.get d 0 = min (fld (w 2) 15 0 * 1024) ((s.fab.ni p).inj.tp.get d 0 + 16 * fld (w 1) 15 0))) ∧
  (∀ (s : State) (d : Nat) (w : Word), s.fab.live = true → hasTrace s.fab.variant = true → d < nDies s.fab.variant →
    let t := (s.fab.die d).trace
    let r : BitVec 16 := w.extractLsb' 0 16
    ((t.wptr - r).toNat ≤ 32768 → answers (.traceRptrWrite d w) s fun h => (h.die d).trace = { t with rptr := r }) ∧
    (32768 < (t.wptr - r).toNat → gives (.traceRptrWrite d w) s (s.fab.busReply 0 false)))

/-! ## Network interfaces -/

/-- Injection offers in the order of its rules: a fault under the management control credit, the
scheduled slot, an answer, a credit packet, a SIG under its control credit, then the deficit round robin
over the domains. -/
def Obligations.InjectionOrder : Prop :=
  ∀ (s : State) (p : Nat), s.fab.moving = true → s.fab.kind p ≠ 0 → s.fab.powered p = true → (s.fab.ni p).inj.sending = [] →
    let f1 := ((s.fab.ni p).inj.queues.map (·.1)).foldl (fun g q => g.settleHead p q (12 * (g.injQ p q).length + 12)) s.fab
    let f := (f1.askTokens p).setReasons p
    let closed := f.onlyAnswers p
    (∀ u r, f.faultNext p = some (u, r) → gives (.niInject p) s (f.niFault p u r)) ∧
    (f.faultNext p = none → ∀ x, f.schShot p = some x → gives (.niInject p) s ((f.markSch p).launch p x 0)) ∧
    (f.faultNext p = none → f.schShot p = none →
      (∀ x, f.offer p 101 = some x → gives (.niInject p) s (f.launch p x 0)) ∧
      (f.offer p 101 = none →
        (∀ x, closed = false → f.offer p 104 = some x → gives (.niInject p) s (f.launch p x 0)) ∧
        ((closed = true ∨ f.offer p 104 = none) →
          (∀ x, 65536 ≤ (f.ni p).inj.ccSig → f.offer p 102 = some x → gives (.niInject p) s (f.launch p x 0)) ∧
          (((f.ni p).inj.ccSig < 65536 ∨ f.offer p 102 = none) →
            ∀ y g, f.drrShot p = (y, g) → gives (.niInject p) s (match y with
              | some x => g.launch p x (g.level p x)
              | none => g.setReasons p)))))

/-- A packet that an NI takes is answered, committed or added by its kind: answers and RD_DONEs at their
initiator, SIGs at their counter, requests at core-local memory, at the directory service and at a
Target NI. -/
def Obligations.DeliveredPackets : Prop :=
  ∀ (s : State) (p : Nat) (q : QPkt) (g : Fabric), s.fab.moving = true → s.fab.powered p = true →
    let h := q.packet.hdr
    (s.fab.kind p ≠ 0 → delivers s.fab p (fun x => s.fab.takesAnswer p x.hdr) q g →
      gives (.answerConsume p) s (g.takeAnswer p q.packet)) ∧
    (s.fab.kind p = 1 → delivers s.fab p (fun x => x.hdr.kind == 8 && !s.fab.rootCopy p x) q g →
      gives (.rdDoneConsume p) s (g.takeDone p q.packet) ∧
      (∀ o c e i, doneBad h (redOf q.packet.aux) = false → (g.ni p).ini.ort.filter (fun x => x.matches h) = [o] →
        o.dom = h.domain → o.purpose = .chunk c e i → (redOf q.packet.aux).rop ≠ 7 → q.packet.body ≠ [] →
        gives (.rdDoneConsume p) s (((((g.consumeEntry p o q.packet).lmWrite p (resultAddr h q.packet.aux)
          q.packet.body).redConsumed p h.tag.toNat h.seq.toNat)).endChunk p c e i (statusOfHdr h)
            (answerInfo o h (statusOfHdr h))))) ∧
    (s.fab.kind p = 1 → g.kind p = 1 → delivers s.fab p (fun x => x.hdr.kind == 14) q g → badHeader h = false →
      h.addr = 0 → xcGseq q.packet.aux = (g.ni p).gseq.expect.get (4 * portOf h.src) 1 →
      answers (.xcreditReceive p none) s fun f => (f.ni p).ini.egCredit.get (portOf h.src) 0 =
        (g.ni p).ini.egCredit.get (portOf h.src) 0 + (xcGrant q.packet.aux : Int)) ∧
    (s.fab.kind p = 1 → g.kind p = 1 → delivers s.fab p (fun x => x.hdr.kind == 4 && !(s.fab.kind p == 3 && x.hdr.cls == 5)) q g →
      badHeader h = false → h.addr.toNat < 256 →
      answers (.sigAdd p) s fun f => (f.ni p).tsq.ctrs.get h.addr.toNat {} =
        (((g.ni p).tsq.ctrs.get h.addr.toNat {}).now g.time.fcc).addTo (sigAddend q.packet.aux) ∧
        ∀ n, n ≠ h.addr.toNat → (f.ni p).tsq.ctrs.get n {} = (g.ni p).tsq.ctrs.get n {}) ∧
    (s.fab.kind p = 1 → delivers s.fab p (fun x => (x.hdr.kind == 0 || x.hdr.kind == 1) && !isNotice x.hdr &&
        (x.hdr.cls != 2 || (s.fab.ni p).lmBusy < 16)) q g → h.cls ≠ 1 → h.cls ≠ 5 →
      badHeader h = false → g.lmOpen p h.addr.toNat h.bcnt.toNat (h.kind == 1) = true →
      (h.kind = 1 → ∀ d, answers (.localMemRequest p d) s fun f =>
        (f.ni p).core.lm = (g.ni p).core.lm.write (fld h.addr 31 0) q.packet.body ∧
        ∃ o, f.injQ p 101 = g.injQ p 101 ++ [o] ∧ o.pkt.hdr.kind = 3 ∧ o.pkt.hdr.tag = h.tag ∧ o.pkt.hdr.seq = h.seq ∧
          o.pkt.hdr.dest = h.src) ∧
      (h.kind = 0 → ∀ d, answers (.localMemRequest p d) s fun f =>
        (f.ni p).core.lm = (g.ni p).core.lm ∧
        ∃ o, f.injQ p 101 = g.injQ p 101 ++ [o] ∧ o.pkt.hdr.kind = 2 ∧ o.pkt.body = sliceBytes d 0 h.bcnt.toNat ∧
          o.pkt.hdr.tag = h.tag ∧ o.pkt.hdr.seq = h.seq ∧ o.pkt.hdr.dest = h.src)) ∧
    (s.fab.kind p = 4 → delivers s.fab p (fun x => x.hdr.kind == 0 || x.hdr.kind == 1) q g → badHeader h = false →
      ∀ ws, g.dirWords p h = some ws → answers (.directoryRequest p) s fun f =>
        ∃ o, f.injQ p 101 = g.injQ p 101 ++ [o] ∧ o.pkt.hdr.kind = 2 ∧ o.pkt.body = ws.flatMap (fun w => toBytesLE w.toNat 4) ∧
          o.pkt.hdr.dest = h.src) ∧
    (s.fab.kind p = 2 → delivers s.fab p (s.fab.takesRequest p) q g → (h.kind = 0 ∨ h.kind = 1) → badHeader h = false →
      g.inStack p h.addr.toNat h.bcnt.toNat = true → g.regionDenied h.addr.toNat h.domain.toNat = false →
      gives (.targetRequest p) s (g.acceptRequest p q.packet))

/-- A packet whose header check fails, or whose tail came early, is discarded without an answer and raises
`HDR_CHECK` or `TRUNCATED`, whichever command takes it (03 R66; 05 R116). -/
def Obligations.SpoiltPacketsAreDiscarded : Prop :=
  ∀ (f g : Fabric) (p : Nat) (t : QPkt → Bool) (k : Fabric → Packet → QPkt → Fabric) (q : QPkt),
    takeVc t f p (List.range 12) = some (q, g) →
    (Header.checks q.hdr = false → f.niTake p t k = g.raiseNi p .hdrCheck (infoIcv 0 0 0)) ∧
    (Header.checks q.hdr = true → q.truncated = true →
      f.niTake p t k = (g.niErr p 4).raiseNi p .truncated (p + q.hdr.tag.toNat * 2 ^ 20))

/-- An open request whose time has passed is answered `TIMEOUT` by its NI, and its tag is held; the hold
ends at its time. An Answer Pool flit of T1 is released. -/
def Obligations.RequestTimers : Prop :=
  (∀ (s : State) (p : Nat) (o : OrtEntry) (c e i : Nat), s.fab.moving = true → s.fab.kind p ≠ 0 → s.fab.powered p = true →
    let t := o.since + o.limit * s.fab.unit
    (s.fab.ni p).ini.ort.find? (fun x => x.red == o.red && x.tag == o.tag && x.seq == o.seq && x.limit != 0 &&
      s.fab.due (x.since + x.limit * s.fab.unit) && !(s.fab.ni p).answerWaits x) = some o →
    o.purpose = .run c e i →
    let f0 := s.fab.reach t
    let f1 := (f0.updNi p fun n => { n with ini := n.ini.holdTag o.tag (f0.time.fcc + 2 * o.limit * s.fab.unit) }).niErr p 5
    let f2 := f1.raiseNi p .rspTimeout (o.seq.toNat * 2 ^ 32 + o.tag.toNat * 2 ^ 20 + o.req.rport.toNat)
    gives (.initiatorTimeout p o.red o.tag o.seq) s
      ((f2.freeEntry p o).settleEnd p o.purpose o.tag o.seq .timeout (infoPort o.req.rport.toNat o.seq) none s.fab.epoch)) ∧
  (∀ (s : State) (p : Nat) (tag : BitVec 12) (t : Nat), s.fab.moving = true → s.fab.powered p = true →
    (s.fab.ni p).ini.heldTags.find? (fun x => x.1 == tag) = some (tag, t) → s.fab.due t = true →
    answers (.tagHoldExpiry p tag) s fun h => ∀ x ∈ (h.ni p).ini.heldTags, x.1 ≠ tag) ∧
  (∀ (s : State) (p : Nat) (x : BitVec 1024) (rest : List (BitVec 1024)), s.fab.moving = true → s.fab.variant = .t1 →
    s.fab.kind p = 1 → s.fab.powered p = true → (s.fab.ni p).ini.poolFlits = x :: rest →
    answers (.answerPoolRelease p) s fun h => (h.ni p).ini.poolFlits = rest ∧
      (h.ni p).ini.pool = (s.fab.ni p).ini.pool - 1 ∧ ∀ q, q ≠ p → h.ni q = s.fab.ni q)

/-- Translation: the window at the head is admitted or its channel stalls; a walk answer is taken; a
withdrawal notice from another port than the translation service's is refused, one of a page in use
waits, and it is answered once the page is free; the descriptor of a tree set-up is sent. -/
def Obligations.TranslationSteps : Prop :=
  (∀ (s : State) (p c eid win : Nat) (rest : List (Nat × Nat × Nat)) (e : QEntry), s.fab.seqLive (.tsq p c) = true →
    (s.fab.ni p).ini.walkQ = (c, eid, win) :: rest → s.fab.entry (.tsq p c) eid = some e →
    let pages := ((e.work.wins[win]?).map (·.pages)).getD []
    ((s.fab.ni p).admits e.work.dom pages = false →
      gives (.pretranslateWindow p c) s (s.fab.updChan (.tsq p c) fun k => { k with reason := 1 })) ∧
    ((s.fab.ni p).admits e.work.dom pages = true →
      let f1 := s.fab.updNi p fun n => { n with ini := { n.ini with walkQ := rest } }
      let f2 := f1.updWin p c eid win fun x => { x with admitted := true, looked := true, waiting := [], bad := [] }
      let f3 := pages.foldl (fun g pg => g.lookPage p c eid win e.work.dom pg) f2
      gives (.pretranslateWindow p c) s ((f3.pumpWalks p).settleWindow p c eid win)) ∧
    (∀ (x : XWin) (page : BitVec 36), (s.fab.chan (.tsq p c)).queue = [e] → e.aborted = false → e.work.wins[win]? = some x →
      x.pages = [page] → (s.fab.ni p).tcFind e.work.dom page = none → (s.fab.ni p).admits e.work.dom [page] = true →
      (∀ k ∈ (s.fab.ni p).tsq.chans, ∀ y ∈ k.2.queue, ∀ z ∈ y.work.wins, z.waiting = []) →
      (s.fab.ni p).walksOut < 16 → (s.fab.ni p).walkSent c eid win page = false →
      answers (.pretranslateWindow p c) s fun h => (h.ni p).ini.walkQ = rest ∧
        (h.ni p).ini.misses = (s.fab.ni p).ini.misses + 1 ∧
        ∃ o, h.injQ p 103 = s.fab.injQ p 103 ++ [o] ∧ o.purpose = some (.walk c eid win e.work.dom page) ∧
          o.pkt.hdr.kind = 0 ∧ o.pkt.hdr.bcnt = 8 ∧ o.pkt.hdr.dest = s.fab.destOf p (walkPort p))) ∧
  (∀ (s : State) (p : Nat) (a : Packet), s.fab.moving = true → s.fab.kind p = 1 → s.fab.powered p = true → a.hdr.kind = 2 →
    let f := s.fab.niCount p 1 a.hdr
    gives (.walkAnswer p a) s (f.takeAnswer p a) ∧
    (∀ o c e w d page wp frame, badHeader a.hdr = false → (s.fab.ni p).ini.ort.find? (fun x => x.matches a.hdr) = some o →
      o.dom = a.hdr.domain → o.purpose = .walk c e w d page → o.nack ≠ 1 → statusOfHdr a.hdr = .ok →
      walkEntry a = some (true, wp, frame) →
      gives (.walkAnswer p a) s ((f.consumeEntry p o a).walkDone p c e w d page (some (wp, frame))))) ∧
  (∀ (n : Ni) (d : BitVec 6) (page : BitVec 36) (frame : BitVec 20) (wp : Bool), n.tcFind d page = none →
    n.ini.tcache.length < 256 → ∃ t, (n.tcFill d page frame wp).ini.tcache = n.ini.tcache ++ [t] ∧
      t.dom = d ∧ t.page = page ∧ t.frame = frame ∧ t.wp = wp ∧ t.withdrawing = false) ∧
  (∀ (s : State) (p : Nat) (x : Packet), s.fab.moving = true → s.fab.kind p = 1 → s.fab.powered p = true →
    isNotice x.hdr = true → (badHeader x.hdr = true ∨ s.fab.kind (fld x.hdr.src 9 0) ≠ 6) →
    (∀ q ∈ (s.fab.ni p).vq.flatMap (·.2), q.hdr ≠ x.hdr) →
    answers (.withdrawalNotice p x) s fun h => ∃ o, h.injQ p 101 = s.fab.injQ p 101 ++ [o] ∧
      o.pkt.hdr.status = BitVec.ofNat 4 (statusCode .malformed) ∧ o.pkt.hdr.dest = x.hdr.src ∧
      (h.ni p).ini = (s.fab.ni p).ini) ∧
  (∀ (s : State) (p : Nat) (x : Packet), s.fab.moving = true → s.fab.kind p = 1 → s.fab.powered p = true →
    isNotice x.hdr = true → badHeader x.hdr = false → s.fab.kind (fld x.hdr.src 9 0) = 6 →
    fld x.hdr.src 25 10 = s.fab.node p → 32 ≤ (s.fab.ni p).ini.notices.length →
    x ∉ (s.fab.ni p).ini.noticeWait → answers (.withdrawalNotice p x) s fun h =>
      h.ni p = { s.fab.ni p with ini := { (s.fab.ni p).ini with noticeWait := (s.fab.ni p).ini.noticeWait ++ [x] } } ∧
      (∀ q, q ≠ p → h.ni q = s.fab.ni q) ∧ h.stops = s.fab.stops) ∧
  (∀ (s : State) (p : Nat) (x : Packet), s.fab.moving = true → s.fab.kind p = 1 → s.fab.powered p = true →
    isNotice x.hdr = true → badHeader x.hdr = false → s.fab.kind (fld x.hdr.src 9 0) = 6 →
    fld x.hdr.src 25 10 = s.fab.node p → (s.fab.ni p).ini.notices.length < 32 →
    (∀ q ∈ (s.fab.ni p).vq.flatMap (·.2), q.hdr ≠ x.hdr) →
    (∀ k ∈ (s.fab.ni p).tsq.chans, ∀ e ∈ k.2.queue, ∀ w ∈ e.work.wins, w.locks.find? (noticePage x).toNat = none) →
    ((s.fab.ni p).tcFind x.hdr.domain (noticePage x) = none → answers (.withdrawalNotice p x) s fun h =>
      (h.ni p).ini.answered = (s.fab.ni p).ini.answered + 1 ∧ ∃ o, h.injQ p 101 = s.fab.injQ p 101 ++ [o] ∧
        o.pkt.hdr.kind = 3 ∧ o.pkt.hdr.status = 0 ∧ o.pkt.hdr.bcnt = 8 ∧ o.pkt.hdr.dest = x.hdr.src) ∧
    (∀ t r, (s.fab.ni p).tcFind x.hdr.domain (noticePage x) = some t → r ∈ (s.fab.ni p).ini.ort → r.tc = some t.id →
      answers (.withdrawalNotice p x) s fun h =>
        (h.ni p).ini.notices = (s.fab.ni p).ini.notices ++ [(x, t.id)] ∧ h.injQ p 101 = s.fab.injQ p 101 ∧
        ∀ y ∈ (h.ni p).ini.tcache, y.id = t.id → y.withdrawing = true)) ∧
  (∀ (s : State) (p : Nat) (x : Packet × Nat) (rest : List (Packet × Nat)), s.fab.moving = true → s.fab.kind p = 1 →
    s.fab.powered p = true → takeFirst (fun y => (s.fab.ni p).entryFree y.2) (s.fab.ni p).ini.notices = some (x, rest) →
    let f1 := (s.fab.updNi p fun n => { n with ini := { n.ini with
      notices := rest, tcache := n.ini.tcache.filter fun t => t.id != x.2 } }).answerNotice p x.1
    ((s.fab.ni p).ini.noticeWait = [] → gives (.noticeRelease p) s f1 ∧ (f1.ni p).ini.notices = rest ∧
      (∀ t ∈ (f1.ni p).ini.tcache, t.id ≠ x.2) ∧ ∃ o, f1.injQ p 101 = s.fab.injQ p 101 ++ [o] ∧ o.pkt.hdr.kind = 3 ∧
        o.pkt.hdr.status = 0 ∧ o.pkt.hdr.dest = x.1.hdr.src) ∧
    (∀ y more, (s.fab.ni p).ini.noticeWait = y :: more → gives (.noticeRelease p) s
      ((f1.updNi p fun n => { n with ini := { n.ini with noticeWait := more } }).takeNotice p y))) ∧
  (∀ (s : State) (p c : Nat) (d : BitVec 512) (e : QEntry), s.fab.seqLive (.tsq p c) = true →
    s.fab.running (.tsq p c) ocTree = some e → fld e.op 95 94 = 0 → e.work.tags = [] → e.aborted = false →
    let g := (s.fab.updChan (.tsq p c) fun k => { k with reason := if k.halted then 8 else 0 }).sendTree p c e 0
      (toBytesLE d.toNat 64)
    gives (.treeDescriptorLoad p c d) s g ∧ ∃ o, g.injQ p c = s.fab.injQ p c ++ [o] ∧ o.purpose = some (.tree c e.eid) ∧
      o.pkt.hdr.kind = 1 ∧ o.pkt.hdr.bcnt = 64 ∧ o.pkt.body = toBytesLE d.toNat 64 ∧
      o.pkt.hdr.dest = s.fab.destOf p (slicePort (dieOfPort p)))

/-- The load path: an access that its NI refuses returns the status to its engine at once; any other is
cut into packets of one tag that wait in the load-path queue. -/
def Obligations.LoadPathAccess : Prop :=
  ∀ (s : State) (p e a n : Nat) (w : Option Bytes), s.fab.moving = true → s.fab.fmu.prog.open_ = true → s.fab.kind p = 1 →
    s.fab.powered p = true → e < 4 → 1 ≤ n → n ≤ 4096 →
    let parts := loadParts a n
    let ps := parts.zip (List.range parts.length)
    let hdr (tag : BitVec 12) (x : (Nat × Nat) × Nat) : Header := s.fab.loadHdr p w.isSome tag x.2 x.1.1 x.1.2
    (∀ st, ps.findSome? (fun x => s.fab.loadCheck p (hdr 0 x)) = some st →
      answers (.loadPathRequest p e a n w) s fun h =>
        (h.ni p).core.engineRsp = (s.fab.ni p).core.engineRsp ++ [(e, st, [])] ∧
        (h.ni p).core.loads = (s.fab.ni p).core.loads ∧ h.injQ p 16 = s.fab.injQ p 16) ∧
    (ps.findSome? (fun x => s.fab.loadCheck p (hdr 0 x)) = none →
      answers (.loadPathRequest p e a n w) s fun h => ∃ (t : BitVec 12) (l : LoadAcc),
        t = (s.fab.takeTag p).1 ∧ (h.ni p).core.loads = (s.fab.ni p).core.loads ++ [l] ∧ l.tag = t ∧ l.engine = e ∧
        l.need = parts.length ∧
        (h.injQ p 16).map (fun o => (o.pkt.hdr, o.pkt.body)) = (s.fab.injQ p 16).map (fun o => (o.pkt.hdr, o.pkt.body)) ++
          ps.map fun x => (hdr t x, if w.isSome then sliceBytes (w.getD []) (x.1.1 - a) x.1.2 else []))

/-! ## Targets (08 R201-R206; 13 R299, R314) -/

/-- A line request is taken and answered; a response that names no request, or has a reserved status, is
a protocol violation. Scrub reports raise their fault, a deferred answer is offered, and a request that
has waited the limit is reported once. -/
def Obligations.TargetService : Prop :=
  ∀ (s : State) (p : Nat), niActs s.fab p 2 →
    let n := s.fab.ni p
    (∀ i l, n.tgt.lines.findIdx? (fun x => !x.taken) = some i → n.tgt.lines[i]? = some l →
      answers (.lineRequestTaken p) s fun h =>
        (h.ni p).tgt.lines = n.tgt.lines.set i { l with taken := true } ∧ ∀ q, q ≠ p → h.ni q = s.fab.ni q) ∧
    (∀ (id : BitVec 8) (st : BitVec 2) (d : Bytes), (∀ l ∈ n.tgt.lines, ¬ (l.taken = true ∧ l.id = id.toNat)) →
      gives (.tgtLineResponse p id st d) s
        ((s.fab.updNi p fun n => { n with tgt := { n.tgt with stallEpisode := false } }).raiseNi p .mcProtocol id.toNat)) ∧
    (∀ (id : BitVec 8) (st : BitVec 2) (d : Bytes) (l : LineReq) (rest : List LineReq) (pl : Place), st ≠ 3 →
      takeFirst (fun x => x.taken && x.id == id.toNat) n.tgt.lines = some (l, rest) → n.tgt.places.find? l.place = some pl →
      pl.answered + 1 < pl.lines → (∀ x ∈ n.tgt.places, x.2.lines ≤ x.2.made) →
      answers (.tgtLineResponse p id st d) s fun h =>
        (h.ni p).tgt.lines = rest ∧ (h.ni p).tgt.places.find? l.place = some (pl.took l st d) ∧
        (pl.took l st d).answered = pl.answered + 1 ∧ (h.ni p).tgt.stallEpisode = false) ∧
    (∀ (id : BitVec 8) (st : BitVec 2) (d : Bytes) (l : LineReq) (rest : List LineReq) (pl : Place), st ≠ 3 →
      takeFirst (fun x => x.taken && x.id == id.toNat) n.tgt.lines = some (l, rest) → n.tgt.places.find? l.place = some pl →
      pl.lines ≤ pl.answered + 1 →
      let f1 := s.fab.updNi p fun n => { n with tgt := { n.tgt with stallEpisode := false } }
      let f2 := f1.updNi p fun n => { n with tgt := { n.tgt with
        lines := rest
        places := n.tgt.places.put l.place (pl.took l st d) } }
      gives (.tgtLineResponse p id st d) s ((f2.placeDone p l.place (pl.took l st d)).makeLines p 1)) ∧
    (∀ line : BitVec 34, gives (.scrubReport p 0 line) s (s.fab.raiseNi p .scrubPoison (line.toNat * 128))) ∧
    (∀ (k : BitVec 2) (line : BitVec 34), k ≠ 0 → gives (.scrubReport p k line) s (s.fab.raiseNi p .mcProtocol (0xFF + 2 * 2 ^ 8))) ∧
    (∀ (d : DatEntry) (a : Packet), n.tgt.dat.find? (fun x => x.answer.isSome && !x.rereading) = some d → d.answer = some a →
      (∀ x ∈ n.tgt.places, ∀ i, x.2.kind ≠ .reread i) →
      (d.req.kind ≠ 0 ∨ a.hdr.bcnt ≠ d.req.bcnt → answers (.datAnswer p) s fun h =>
        ∃ o, h.injQ p 101 = s.fab.injQ p 101 ++ [o] ∧ o.pkt = a ∧ o.need = d.id + 1) ∧
      (d.req.kind = 0 → a.hdr.bcnt = d.req.bcnt → gives (.datAnswer p) s
        ((s.fab.updNi p fun m => { m with tgt := { m.tgt with
            dat := m.tgt.dat.map fun y => if y.id == d.id then { y with rereading := true } else y } }).openPlace p
          { hdr := d.req } (.reread d.id) false d.req.addr.toNat d.req.bcnt.toNat))) ∧
    (∀ l, n.tgt.stallEpisode = false → n.tgt.lines.find? (fun x => s.fab.due (x.since + s.fab.localTmo p * s.fab.unit)) = some l →
      gives (.tgtStall p) s (((s.fab.reach (l.since + s.fab.localTmo p * s.fab.unit)).updNi p fun n =>
        { n with tgt := { n.tgt with stallEpisode := true } }).raiseNi p .tgtStall (p + l.id * 2 ^ 10)))

/-- A Target NI frozen by a global stop still takes what its stack sends, and nothing else of it changes
(16 R368). -/
def Obligations.FrozenTargetTakesResponses : Prop :=
  ∀ (s : State) (p : Nat), s.fab.live = true → s.fab.fmu.stop.stopped = true → s.fab.kind p = 2 → s.fab.powered p = true →
    let n := s.fab.ni p
    let takes (c : Instr) (x : StackIn) : Prop := answers c s fun h =>
      h.ni p = { n with tgt := { n.tgt with inbox := n.tgt.inbox ++ [x] } } ∧ (∀ q, q ≠ p → h.ni q = s.fab.ni q) ∧
      h.stops = s.fab.stops ∧ h.fmu = s.fab.fmu ∧ h.time = s.fab.time
    (∀ id st d, takes (.tgtLineResponse p id st d) (.line id st d)) ∧ (∀ k line, takes (.scrubReport p k line) (.scrub k line))

/-- A Core NI writes a multicast copy, or the result at a root port, into its core-local memory and then
reports its leaf slot; a Target NI reports the copy or result it has committed. -/
def Obligations.LeafAndRootReports : Prop :=
  (∀ (s : State) (p : Nat) (q : QPkt) (g : Fabric), s.fab.moving = true → s.fab.kind p = 1 → s.fab.powered p = true →
    delivers s.fab p (fun x => x.hdr.kind == 5 && x.hdr.cls == 4) q g → g.kind p = 1 → badHeader q.packet.hdr = false →
    gives (.leafReport p) s ((g.lmWrite p q.packet.hdr.addr.toNat q.packet.body).leafReported p q.side.toNat .ok)) ∧
  (∀ (s : State) (p : Nat) (q : QPkt) (g : Fabric), s.fab.moving = true → s.fab.kind p = 1 → s.fab.powered p = true →
    delivers s.fab p (fun x => x.hdr.kind == 8 && s.fab.rootCopy p x) q g → g.kind p = 1 → badHeader q.packet.hdr = false →
    let a := resultAddr q.packet.hdr q.packet.aux
    (g.lmOpen p a q.packet.body.length true = true →
      gives (.rootResultReport p) s ((g.lmWrite p a q.packet.body).leafReported p q.side.toNat .ok)) ∧
    (g.lmOpen p a q.packet.body.length true = false →
      gives (.rootResultReport p) s ((g.niErr p 8).leafReported p q.side.toNat .malformed))) ∧
  (∀ (s : State) (p k slot : Nat) (pl : Place), niActs s.fab p 2 →
    let done (f : Fabric) : Fabric :=
      ((f.updNi p fun n => { n with tgt := { n.tgt with places := n.tgt.places.del k } }).countPoison p pl).leafReported p slot
        (if pl.part then .partPoison else .ok)
    ((s.fab.ni p).tgt.committed false = some (k, pl, slot) → gives (.leafReport p) s (done s.fab)) ∧
    ((s.fab.ni p).tgt.committed true = some (k, pl, slot) → gives (.rootResultReport p) s (done s.fab))) ∧
  (∀ (s : State) (r : Packet), s.fab.moving = true → r.hdr.kind = 0 →
    (∀ q ∈ (s.fab.ni fmuPort).vq.flatMap (·.2), q.hdr ≠ r.hdr) →
    let a := s.fab.digestAnswer r.hdr
    let d := s.fab.fmu.res.dig
    gives (.digestRead r) s (s.fab.answer fmuPort a) ∧
    (fld r.hdr.src 9 0 = securityPort → fld r.hdr.src 25 10 = s.fab.node fmuPort → r.hdr.bcnt = 64 →
      r.hdr.addr = (0xFE0000000000 : BitVec 48) → a.hdr.kind = 2 ∧ a.hdr.status = 0 ∧ a.hdr.bcnt = 64 ∧ a.hdr.dest = r.hdr.src ∧
        a.body = ([d.head, d.word 1, d.word 2, d.word 3].flatMap fun w => toBytesLE w.toNat 4) ++
          ((List.range 12).flatMap fun i => toBytesBE (d.word (4 + i)).toNat 4)))

/-! ## Stops and links (03 R81; 04 R89, R445; 05 R112-R115; 09 R218; 13 R314) -/

/-- A stop examines the oldest fresh head of an input VC, merges an acknowledgement into one that waits,
and examines a local copy when a leaf slot is free; a local output that its NI leaves standing past the
limit is reported once and the packets held for it are ended with `FENCED`. -/
def Obligations.StopCommands : Prop :=
  ∀ (s : State) (st input vc : Nat), s.fab.moving = true → st < nStops s.fab.variant →
    let key := 12 * input + vc
    let l := s.fab.stopQ st key
    (input < 8 → vc < 12 → ∀ i q, l.findIdx? (fun x => x.route == .fresh) = some i → l[i]? = some q →
      (mergeInto (hasRdu s.fab.variant) i l = none →
        let r := s.fab.examine st input vc q
        gives (.stopHeadArrival st input vc) s
          (((r.1.setStopQ st key ((r.1.stopQ st key).modify i fun y => { y with route := r.2 })).ringThrough st key).reap st)) ∧
      (∀ l2, mergeInto (hasRdu s.fab.variant) i l = some l2 → q.hdr.kind ≠ 6 →
        gives (.stopHeadArrival st input vc) s ((s.fab.setStopQ st key l2).oweKey st key q.held)) ∧
      (∀ l2, mergeInto (hasRdu s.fab.variant) i l = some l2 → q.hdr.kind = 6 → answers (.stopHeadArrival st input vc) s fun h =>
        (h.stopU st).mcMerged = (s.fab.stopU st).mcMerged + 1 ∧
        ∀ x, x ≠ st → (h.stopU x).mcMerged = (s.fab.stopU x).mcMerged)) ∧
    (input < 8 → vc < 12 → ∀ i q slot, l.findIdx? QPkt.wantsSlot = some i → l[i]? = some q → (s.fab.stopU st).freeSlot = some slot →
      gives (.leafSlotExamine st input vc) s (s.fab.leafExamine st key i slot q)) ∧
    (∀ o q, 4 ≤ o → o < 8 → (s.fab.stopU st).obs.sinkEpisode.contains o = false →
      let lim := 16 * max 1 (fld (s.fab.stopReg st 0x340) 15 0) * s.fab.unit
      let port := 4 * st + (o - 4)
      ((s.fab.stopU st).waitingFor o).find? (fun x => mustConsume (s.fab.kind port) x.hdr &&
        s.fab.due ((s.fab.stopU st).sinkFrom o x + lim)) = some q →
      let f1 := (s.fab.reach ((s.fab.stopU st).sinkFrom o q + lim)).raiseStop st .sinkStall (port + q.hdr.cls.toNat * 2 ^ 12)
      let f2 := f1.updStop st fun y => { y with
        vq := y.vq.mapAll fun _ k => k.map fun p => { p with route := p.route.kill o .fenced }
        obs := { y.obs with sinkEpisode := y.obs.sinkEpisode ++ [o] } }
      gives (.sinkStall st o) s ((f2.reap st).rduPump st))

/-- A flit arrives at an end whose link is up. When its acknowledgement timer expires a sender rewinds to
its oldest unacknowledged flit and counts a failed retry if it had rewound before; an input at which
nothing intact arrives for the limit, its peer withdrawn, withdraws its link. -/
def Obligations.LinkCommands : Prop :=
  (∀ (s : State) (e : LinkEnd) (noise : List Nat), s.fab.moving = true → s.fab.endLive e = true →
    gives (.flitReceive e noise) s (s.fab.flitArrives e noise)) ∧
  (∀ (s : State) (p t : Nat), s.fab.moving = true → s.fab.endLive (.niIn p) = true →
    (s.fab.tx (s.fab.peer (.ni p))).ackAt = some t → s.fab.due t = true →
    answers (.ackTimerExpiry (.niIn p)) s fun h =>
      let x := s.fab.tx (s.fab.peer (.ni p))
      let y := h.tx (s.fab.peer (.ni p))
      y.rewound = true ∧ y.retries = x.retries + 1 ∧ y.retry = x.retry ∧ y.resend = x.retry.length ∧
      y.run = if x.rewound then x.run + 1 else x.run) ∧
  (∀ (s : State) (st i : Nat), s.fab.moving = true → i < 4 → st < nStops s.fab.variant →
    let e : End := .st st (inputOf i)
    let t := (s.fab.rx e).lastIntact + silenceLimit (s.fab.endBridge e) * s.fab.unit
    s.fab.linkUp e = true → (s.fab.tx (s.fab.peer e)).state = .withdrawn → s.fab.due t = true →
    gives (.linkSilenceTimeout (.stopIn st i)) s (((s.fab.reach t).withdrawEnd st (inputOf i)).reap st))

/-- Flits enter a buffer in order: a flit that is not the next one changes no buffer and is not
acknowledged; the next one is acknowledged; an `IDLE` flit enters none (05 R106, R113, R114). -/
def Obligations.FlitsEnterInOrder : Prop :=
  ∀ (f : Fabric) (e : End) (x : Flit),
    let c := Ctl.ofBits x.c
    let g := f.intactFlit e x
    (c.ftype ≠ ftIdle → c.lseq = (f.rx e).lack + 1 → (g.rx e).lack = c.lseq ∧ (g.rx e).discarding = false) ∧
    ((c.ftype = ftIdle ∨ c.lseq ≠ (f.rx e).lack + 1) →
      (g.rx e).lack = (f.rx e).lack ∧ (g.rx e).landing = (f.rx e).landing ∧ (g.rx e).discarding = (f.rx e).discarding ∧
      ∀ v, g.vcQ e v = f.vcQ e v)

/-! ## RDUs and trees (10) -/

/-- An RDU takes the oldest contribution of an input VC; a buffer whose hold timer expires before all its
packets have merged is freed, counted and reported (10 R254). -/
def Obligations.RduCommands : Prop :=
  ∀ (s : State) (st : Nat), s.fab.moving = true → st < nStops s.fab.variant →
    (∀ input vc i q, input < 8 → vc < 12 →
      let f := s.fab.rduPump st
      let key := 12 * input + vc
      (f.stopQ st key).findIdx? (fun x => x.route == .rdu && x.tailIn) = some i → (f.stopQ st key)[i]? = some q →
      (q.hdr.kind ≠ 8 → gives (.rduContrib st input vc) s (f.rduTake st input key i q)) ∧
      (∀ e, q.hdr.kind ≠ 8 → f.treeAt st q.hdr.group.toNat = some e →
        let m := redOf q.packet.aux
        let c := f.redCfg st e
        f.contribBad st e q.packet.hdr m = false →
        let g := ((f.updStop st fun y => { y with rdu := { y.rdu with merged := y.rdu.merged + 1 } }).setStopQ st key
          (((f.updStop st fun y => { y with rdu := { y.rdu with merged := y.rdu.merged + 1 } }).stopQ st key).eraseIdx i)).oweKey
            st key q.held
        (∀ k, (f.stopU st).rdu.bufOf q.hdr.group q.hdr.seq (m.rop == 7) = none → f.freeBuf st e q.hdr.group = some k →
          gives (.rduContrib st input vc) s ((g.updBufs st fun bs => bs.put k (openBuf c e m q.packet f.time.fcc)).rduPump st)) ∧
        (∀ k b, (f.stopU st).rdu.bufOf q.hdr.group q.hdr.seq (m.rop == 7) = some (k, b) → c.rop ≠ 1 →
          (c.anchored = true → b.anchorPass = false → unequalBlocks b.ecnt b.anchors q.packet.area = []) →
          gives (.rduContrib st input vc) s ((g.updBufs st fun bs => bs.put k (b.merge c m q.packet)).rduPump st))) ∧
      (q.hdr.kind = 8 → gives (.rduContrib st input vc) s (f.rduDown st key i q))) ∧
    (∀ k b, NMap.find? (s.fab.stopU st).rdu.bufs k = some b → b.merged < twExpect (s.fab.trw st b.entry 1) →
      s.fab.due (b.openedAt + twHtmo (s.fab.trw st b.entry 3) * 1024 * s.fab.unit) = true →
      answers (.rduHoldTimeout st k) s fun h =>
        (h.stopU st).rdu.bufs = (s.fab.stopU st).rdu.bufs.del k ∧ (h.stopU st).rdu.expired = (s.fab.stopU st).rdu.expired + 1 ∧
        h.nis = s.fab.nis)

/-- A slice takes the oldest tree request: a set-up or a change of the legal form is acted on, any other
is refused `MALFORMED`. A frozen tree is torn down when its owner leaves and no buffer of it is open. A
stop writes its entry and confirms, and the last confirmation answers the request. -/
def Obligations.TreeCommands : Prop :=
  (∀ (s : State) (d : Nat) (q : QPkt) (g : Fabric), s.fab.moving = true → d < nDies s.fab.variant → hasRdu s.fab.variant = true →
    let p := slicePort d
    delivers s.fab p (fun x => (x.hdr.kind == 0 || x.hdr.kind == 1) && !(p == fmuPort && x.hdr.kind == 0)) q g →
    let r := q.packet
    let ok := r.hdr.kind == 1 && fld r.hdr.addr 47 40 == 0xFD && kindLegal r.hdr
    (ok = true → treeAct r = 0 → r.hdr.bcnt = 64 → lengthsLegal r.hdr = true → gives (.treeRequest d) s (g.treeSetUpReq d r)) ∧
    (ok = true → r.hdr.bcnt = 0 → r.hdr.len = 1 → treeAct r = 1 → gives (.treeRequest d) s (g.treeChangeReq d r true)) ∧
    (ok = true → r.hdr.bcnt = 0 → r.hdr.len = 1 → treeAct r = 2 → gives (.treeRequest d) s (g.treeChangeReq d r false)) ∧
    (∀ t, ok = true → treeAct r = 0 → r.hdr.bcnt = 64 → lengthsLegal r.hdr = true →
      t = { owner := fld r.hdr.src 9 0, desc := BitVec.ofNat 512 (ofBytesLE r.body)
            members := tdMembers (BitVec.ofNat 512 (ofBytesLE r.body)) } →
      (∀ b ∈ bitsSet 256 (tdMask t.desc), b < nStops g.variant) → (g.die d).recs.find? (treeId r) = none →
      (∀ x ∈ g.dies, ∀ y ∈ x.2.trees, treeId y.req ≠ treeId r) →
      g.treeCheck t (treeId r) r.hdr.domain.toNat false = none →
      let ls := (g.treeLinks t).getD []
      gives (.treeRequest d) s (g.treeOrder d r ((treeStops t ls).map fun x => (x, g.treeWords t ls x)) (some t))) ∧
    (∀ t, ok = true → r.hdr.bcnt = 0 → r.hdr.len = 1 → (treeAct r = 1 ∨ treeAct r = 2) →
      (g.die d).recs.find? (treeId r) = some t → t.notChanged (treeAct r == 1) (fld r.hdr.src 9 0) = false →
      gives (.treeRequest d) s ((g.markTree (treeId r) 28 true).updDie d fun x =>
        { x with trees := x.trees ++ [{ req := r, freeze := true }] })) ∧
    (ok = false → gives (.treeRequest d) s (g.niRefuse p r.hdr .malformed))) ∧
  (∀ (s : State) (d : Nat) (q : TreeReq) (rest : List TreeReq) (t : TreeRec), s.fab.moving = true → d < nDies s.fab.variant →
    takeFirst (fun x => x.freeze && s.fab.treeIdle (treeId x.req) && !s.fab.treeBusy (treeId x.req)) (s.fab.die d).trees =
      some (q, rest) →
    (s.fab.die d).recs.find? (treeId q.req) = some t →
    let f1 := s.fab.updDie d fun x => { x with trees := rest }
    let tree := treeId q.req
    (t.changed (treeAct q.req == 1) (fld q.req.hdr.src 9 0) = none →
      gives (.treeFreezeApply d) s ((f1.tearDown tree).treeAnswer d q.req .ok none)) ∧
    (∀ t2, t.notChanged (treeAct q.req == 1) (fld q.req.hdr.src 9 0) = false →
      t.changed (treeAct q.req == 1) (fld q.req.hdr.src 9 0) = some t2 →
      f1.treeCheck t2 tree q.req.hdr.domain.toNat true = none →
      let ls := (f1.treeLinks t2).getD []
      let stops := treeStops t2 ls
      let gone := f1.stopIds.filter fun x => (f1.treeAt x tree).isSome && !stops.contains x
      gives (.treeFreezeApply d) s (f1.treeOrder d q.req
        ((stops.map fun x => (x, f1.treeWords t2 ls x)) ++ gone.map fun x => (x, [])) (some t2)))) ∧
  (∀ (s : State) (d st : Nat) (u : UnitId) (ws : List Word) (rest : List (UnitId × Order)) (q : TreeReq) (others : List TreeReq)
      (e dom : Nat), s.fab.moving = true → st < nStops s.fab.variant →
    takeFirst (fun x => match x.2 with | .tree a b _ => a == d && b == st | _ => false) s.fab.fmu.road.orders =
      some ((u, .tree d st ws), rest) →
    let f1 := s.fab.updFmu fun m => { m with road := { m.road with orders := rest } }
    takeFirst (fun x : TreeReq => x.confirm.contains st) (f1.die d).trees = some (q, others) →
    f1.grantOf st (treeId q.req) = some (e, dom) →
    let f2 := f1.setTreeWords st e ws
    let f3 := f2.updDie d fun x => { x with trees := others }
    (q.confirm.erase st ≠ [] → gives (.treeRduConfirm d st) s (f2.updDie d fun x => { x with
      trees := x.trees.map fun y => if y == q then { y with confirm := q.confirm.erase st } else y })) ∧
    (q.confirm.erase st = [] →
      (q.words.all fun w => w.2.isEmpty || (f3.grantOf w.1 (treeId q.req)).isSome) = true →
      (q.result = none → gives (.treeRduConfirm d st) s ((f3.refreeze (treeId q.req)).treeAnswer d q.req .ok none)) ∧
      (∀ t, q.result = some t → treeAct q.req = 0 → gives (.treeRduConfirm d st) s
        ((((f3.recordTree (treeId q.req) t).compareGuard t).refreeze (treeId q.req)).treeAnswer d q.req .ok none)) ∧
      (∀ t, q.result = some t → treeAct q.req ≠ 0 → gives (.treeRduConfirm d st) s
        (((f3.recordTree (treeId q.req) t).refreeze (treeId q.req)).treeAnswer d q.req .ok none))))

/-! ## Gateways (09 R224; 10 R257, R258; 13 R302-R307, R314) -/

/-- A gateway holds a request in its egress buffer and charges its flits; the transport takes the oldest
packet that its peer has credit for, which returns the flits; a request for a node without a peer is
refused `UNREACHABLE`; a stalled gateway gives up what it holds. -/
def Obligations.GatewayEgress : Prop :=
  ∀ (s : State) (p : Nat), niActs s.fab p 3 →
    (∀ q g, delivers s.fab p (fun x => x.hdr.cls == 5 && x.hdr.kind != 14) q g → isFwdReq q.packet.hdr = true →
      badPacket q.packet = false → (g.peerInit p (nodeOf q.packet.hdr.dest)).isSome = true →
      (g.ni p).gw.stallEpisode = false → answers (.gwEgress p) s fun h => (h.ni p).gw.egress = (g.ni p).gw.egress ++ [(q.packet, g.time.fcc)] ∧
        (h.ni p).gw.egUsed = (g.ni p).gw.egUsed + q.packet.hdr.len.toNat ∧ ∀ x, x ≠ p → h.ni x = g.ni x) ∧
    (∀ x rest, (s.fab.ni p).gw.toTransport = x :: rest → answers (.gwTransportHandoff p) s fun h =>
      (h.ni p).gw = { (s.fab.ni p).gw with toTransport := rest, stallEpisode := false } ∧ ∀ y, y ≠ p → h.ni y = s.fab.ni y) ∧
    (∀ x t rest, (s.fab.ni p).gw.toTransport = [] →
      s.fab.egNext p (s.fab.ni p).gw.egress = some ((x, t), rest) →
      let f1 := s.fab.updNi p fun n => { n with gw := { n.gw with egress := rest } }
      (s.fab.peerInit p (nodeOf x.hdr.dest) = none → gives (.gwTransportHandoff p) s (f1.egRefuse p x .unreachable)) ∧
      (∀ k, s.fab.peerInit p (nodeOf x.hdr.dest) = some k → answers (.gwTransportHandoff p) s fun h =>
        (h.ni p).gw.peerCharged.get (nodeOf x.hdr.dest) 0 =
          (s.fab.ni p).gw.peerCharged.get (nodeOf x.hdr.dest) 0 + x.hdr.len.toNat ∧
        (h.ni p).gw.egress = rest ∧ (h.ni p).gw.egUsed = (s.fab.ni p).gw.egUsed - x.hdr.len.toNat)) ∧
    (∀ r : Packet, isFwdReq r.hdr = true →
      (r.hdr.kind ≠ 7 → r.hdr.kind ≠ 4 → gives (.transportFailure p r) s (s.fab.niRefuse p r.hdr .timeout)) ∧
      (r.hdr.kind = 0 ∨ r.hdr.kind = 1 → answers (.transportFailure p r) s fun h =>
        ∃ o, h.injQ p 101 = s.fab.injQ p 101 ++ [o] ∧ o.pkt.hdr.status = BitVec.ofNat 4 (statusCode .timeout) ∧
          o.pkt.hdr.dest = r.hdr.src ∧ o.pkt.hdr.tag = r.hdr.tag ∧ o.pkt.hdr.seq = r.hdr.seq) ∧
      (r.hdr.kind = 4 → gives (.transportFailure p r) s
        ((s.fab.niErr p 3).raiseNi p .sigDrop (infoDrop r.hdr .timeout)))) ∧
    (∀ t0, (s.fab.ni p).gw.stallEpisode = false → s.fab.oldestEgress p = some t0 →
      s.fab.due (t0 + s.fab.localTmo p * s.fab.unit) = true →
      let f1 := ((s.fab.reach (t0 + s.fab.localTmo p * s.fab.unit)).updNi p fun n => { n with gw := { n.gw with
        stallEpisode := true, egress := []
        toTransport := n.gw.toTransport.filter fun x => !isAnswerKind x.1.hdr.kind.toNat } }).raiseNi p .gwStall p
      let lost := (s.fab.ni p).gw.toTransport.filter fun x => isAnswerKind x.1.hdr.kind.toNat
      let f2 := lost.foldl (fun h x => h.raiseNi p .rspDrop (infoDrop x.1.hdr .timeout)) f1
      gives (.gwStall p) s ((s.fab.ni p).gw.egress.foldl (fun h x => h.egRefuse p x.1 .timeout) f2))

/-- A gateway takes a request or an answer from the transport, hands the answer to a chunk to every child
recorded for it, applies credit packets, and gives back tokens it has not used for their time. -/
def Obligations.GatewayIngress : Prop :=
  ∀ (s : State) (p : Nat), niActs s.fab p 3 →
    (∀ x : Packet, (s.fab.ni p).pwr.quiesce = false → x.hdr.cls = 5 →
      let f := s.fab.updNi p fun n => { n with gw := { n.gw with refused := none } }
      (Header.checks x.hdr = false → gives (.gwIngress p x) s (f.raiseNi p .hdrCheck (infoIcv 0 0 0))) ∧
      (Header.checks x.hdr = true → isFwdReq x.hdr = true → gives (.gwIngress p x) s (f.ingressRequest p x) ∧
        (let node := nodeOf x.hdr.src
         let n := x.hdr.len.toNat
         let dest := portOf x.hdr.dest
         let f1 := f.updNi p fun y => { y with gw := { y.gw with
           inFrom := y.gw.inFrom.put node ((f.ni p).gw.inFrom.get node 0 + n), inUsed := y.gw.inUsed + n } }
         let col := f1.preview p x.hdr
         (f.ni p).gw.inFrom.get node 0 + n ≤ (f.peerInit p node).getD 0 → f1.crawl = false → (f.ni p).pwr.fence = false →
         (f.ni p).pwr.dfence.getLsbD x.hdr.domain.toNat = false → badPacket x = false → nodeOf x.hdr.dest = f.node p →
         dest < nPorts f.variant → col ≠ 2 → (x.hdr.kind = 0 ∨ x.hdr.kind = 1) → f.kind dest ≠ 1 →
         gives (.gwIngress p x) s ((f1.chargeMeter p x.hdr col).enqueue p (32 + x.hdr.domain.toNat)
           { pkt := { x with hdr := { x.hdr with rport := BitVec.ofNat 10 dest, colour := BitVec.ofNat 2 col } } }))) ∧
      (Header.checks x.hdr = true → isFwdReq x.hdr = false → isAnswerKind x.hdr.kind.toNat = true →
        gives (.gwIngress p x) s (f.ingressAnswer p x) ∧
        ((f.ni p).gw.inAnswers + x.hdr.len.toNat ≤ 2048 → badPacket x = false → nodeOf x.hdr.dest = f.node p →
          portOf x.hdr.dest < nPorts f.variant → x.hdr.kind ≠ 8 → answers (.gwIngress p x) s fun h =>
            (h.ni p).gw.inAnswers = (f.ni p).gw.inAnswers + x.hdr.len.toNat ∧
            ∃ o, h.injQ p 101 = f.injQ p 101 ++ [o] ∧ o.need = x.hdr.len.toNat ∧ o.pkt.body = x.body ∧
              o.pkt.hdr = { x.hdr with rport := BitVec.ofNat 10 (portOf x.hdr.dest) }))) ∧
    (∀ q g o, delivers s.fab p (fun x => x.hdr.kind == 8 && x.hdr.cls == 3) q g → badPacket q.packet = false →
      (g.ni p).ini.ort.filter (fun y => y.matches q.packet.hdr) = [o] → o.dom = q.packet.hdr.domain →
      ∀ node tree, o.purpose = .rdRelay node tree →
      let f1 := (g.consumeEntry p o q.packet).toTransport p { q.packet with
        hdr := { q.packet.hdr with cls := 5, dest := BitVec.ofNat 28 (node * 1024), src := g.srcOf p, group := tree, tag := tree } }
      gives (.gwRdDoneFanout p) s (if (redOf q.packet.aux).rop == 7 then f1
        else f1.redConsumed p q.packet.hdr.tag.toNat q.packet.hdr.seq.toNat)) ∧
    (∀ x : Packet, x.hdr.kind = 14 → fld x.hdr.addr 1 0 = 1 → gives (.xcreditReceive p (some x)) s (s.fab.takeCredit p x)) ∧
    (∀ q g, delivers s.fab p (fun x => x.hdr.kind == 14) q g → gives (.xcreditReceive p none) s (g.takeCredit p q.packet)) ∧
    (∀ x : Packet, x.hdr.kind = 14 → x.hdr.addr = 1 → badHeader x.hdr = false →
      xcGseq x.aux = (s.fab.ni p).gseq.expect.get (4 * (nodeOf x.hdr.src * 1024) + 1) 1 →
      answers (.xcreditReceive p (some x)) s fun h =>
        (h.ni p).gw.peerCharged.get (nodeOf x.hdr.src) 0 =
          (s.fab.ni p).gw.peerCharged.get (nodeOf x.hdr.src) 0 - xcGrant x.aux ∧
        (h.ni p).gw.egress = (s.fab.ni p).gw.egress) ∧
    (∀ target, 0 < (s.fab.ni p).gw.tokens.get target 0 →
      ((s.fab.ni p).inj.queues.any fun q => q.2.any fun o => o.purpose.isNone && isFwdReq o.pkt.hdr && o.pkt.hdr.rport.toNat == target)
        = false →
      s.fab.due ((s.fab.ni p).gw.tokLast.get target 0 + max 1 (fld (s.fab.niReg p 0xA00) 15 0) * s.fab.unit) = true →
      answers (.tokenIdleReturn p target) s fun h => (h.ni p).gw.tokens.find? target = none ∧
        ∃ o, h.injQ p 104 = s.fab.injQ p 104 ++ [o] ∧ o.pkt.hdr.kind = 14 ∧ fld o.pkt.hdr.addr 1 0 = 2 ∧
          xcGrant o.pkt.aux = (s.fab.ni p).gw.tokens.get target 0 % 65536)

/-! ## Numbers, encodings and codes -/

/-- The counts of an instant and the 64-bit word that holds one (02 R38). -/
def Obligations.TimeCounts : Prop :=
  (∀ f : Fabric, f.time.fcc = 2 ^ 20 * f.msc + f.kOf ∧ f.kOf < 2 ^ 20) ∧
  (∀ n : Nat, (fccWord n).extractLsb' 60 4 = 0 ∧ (fccWord n).extractLsb' 20 40 = BitVec.ofNat 40 (n / 2 ^ 20) ∧
    (fccWord n).extractLsb' 0 20 = BitVec.ofNat 20 n) ∧
  (∀ f : Fabric, f.kOf = 1048575 →
    let g := f.updTime fun t => { t with fcc := t.fcc + 1 }
    g.kOf = 0 ∧ g.msc = f.msc + 1) ∧
  (∀ f : Fabric, f.kOf < 1048575 →
    let g := f.updTime fun t => { t with fcc := t.fcc + 1 }
    g.kOf = f.kOf + 1 ∧ g.msc = f.msc)

/-- Stops, dies and ports of package coordinates (00 R9-R11). -/
def Obligations.StopAndPortNumbers : Prop :=
  ∀ (v : Variant) (x y p : Nat), x < ringW v → y < ringD v → p < 4 →
    let s := stopAt x y
    let die := x / 8 + 2 * (y / 8)
    ringW v = (if v = .t1 then 8 else 16) ∧ ringD v = (if v = .t4 then 16 else 8) ∧
    dieOfStop s = die ∧ s = 64 * die + (8 * (y % 8) + x % 8) ∧ 8 * (y % 8) + x % 8 < 64 ∧ s < nStops v ∧
    nStops v = (match v with | .t1 => 64 | .t2 => 128 | .t4 => 256) ∧ xOf s = x ∧ yOf s = y ∧
    stopOfPort (4 * s + p) = s ∧ localOfPort (4 * s + p) = p ∧ 4 * s + p < nPorts v ∧
    nPorts v = (match v with | .t1 => 256 | .t2 => 512 | .t4 => 1024)

/-- No bit of a header or of a flit's control field is dropped, and a sealed header passes its check and
keeps every field but the check (03 R60, R61, R64-R66). -/
def Obligations.HeaderEncoding : Prop :=
  (∀ h : Header, Header.ofBits (Header.toBits h) = h) ∧
  (∀ b : BitVec 256, Header.toBits (Header.ofBits b) = b) ∧
  (∀ c : Ctl, Ctl.ofBits (Ctl.toBits c) = c) ∧
  (∀ h : Header, Header.checks (Header.seal h) = true ∧ { Header.seal h with hchk := h.hchk } = h)

/-- A quarter that arrives as sent is clean, one wrong bit is put right, and two wrong bits are found
(05 R110-R112). -/
def Obligations.FecCorrectsAndDetects : Prop :=
  ∀ x : BitVec 272,
    let sent : BitVec 282 := fecCheck x ++ x
    let wrong (i : Nat) : BitVec 282 := BitVec.ofNat 282 (2 ^ i)
    fecQuarter sent = some (x, none) ∧
    (∀ i, i < 282 → fecQuarter (sent ^^^ wrong i) = some (x, some i)) ∧
    (∀ i j, i < j → j < 282 → fecQuarter (sent ^^^ wrong i ^^^ wrong j) = none)

/-- The sender of a bridge never has more than 128 flits in the landing buffer, and two entries are
always left for each VC that holds none (05 R119). -/
def Obligations.LandingBufferNeverOverflows : Prop :=
  let used (t : LinkTx) (v : Nat) : Nat := t.used.get v 0
  let held (t : LinkTx) : Nat := ((List.range 12).map (used t)).sum
  let counts (t : LinkTx) : Prop := t.shared = ((List.range 12).map fun v => used t v - 2).sum ∧ t.shared ≤ 104
  counts {} ∧
  ∀ (t : LinkTx) (v : Nat), v < 12 → counts t →
    held t ≤ 128 ∧
    (used t v < 2 ∨ t.shared < 104 → counts (t.spend true v) ∧ held (t.spend true v) = held t + 1 ∧ held t < 128) ∧
    (0 < used t v → counts (t.refund true v 1) ∧ held (t.refund true v 1) + 1 = held t) ∧
    (∀ n, n ≤ used t v → counts (t.refund true v n) ∧ used (t.refund true v n) v = used t v - n ∧
      ∀ w, w ≠ v → used (t.refund true v n) w = used t w)

/-- The merge of partials does not depend on the order of arrival or on the shape of the tree, for any
partials whose finite ones add up to at most Z - 8 in magnitude (10 R246, R250). -/
def Obligations.ReductionIsOrderFree : Prop :=
  ∀ (p : Nat) (xs ys zs : List Int), 5 ≤ p → xs.Perm ys →
    (((xs ++ zs).filter (redFinite p)).map Int.natAbs).sum ≤ 2 ^ (p - 1) - 8 →
    let merged (l : List Int) : Int := l.foldl (redMerge p) 0
    merged xs = merged ys ∧ redMerge p (merged xs) (merged zs) = merged (xs ++ zs) ∧
    ((∀ x ∈ xs, redFinite p x = true) → merged xs = xs.sum)

/-! ## Stopped, or in reset (16 R368; 18 R389) -/

/-- The commands that act on an NI, a stop, a link or an RDU, or start an op that waits for resume. -/
def Sys2Proof.Machine.dataPlane (c : Instr) : Bool :=
  match c with
  | .answerConsume _ | .walkAnswer _ _ | .rdDoneConsume _ | .initiatorTimeout _ _ _ _ | .answerPoolRelease _
  | .faultSend _ | .gwEgress _ | .gwTransportHandoff _ | .transportFailure _ _ | .gwIngress _ _
  | .gwRdDoneFanout _ | .xcreditReceive _ _ | .tokenIdleReturn _ _ | .gwStall _ | .sinkStall _ _ | .meterRefill
  | .niInject _ | .turnSwap | .retrainComplete _ _ _ _ _ | .cntGatherReceive _ | .cntDataReceive _
  | .queueSample | .opSample _ _ | .ndetPublish | .rduContrib _ _ _ | .rduHoldTimeout _ _ | .autoRepair
  | .mgtOpReceive _ | .mgtRspReceive _ | .fencepComplete | .stopHeadArrival _ _ _ | .leafSlotExamine _ _ _
  | .flitReceive _ _ | .ackTimerExpiry _ | .linkSilenceTimeout _ | .targetRequest _ | .lineRequestTaken _
  | .datAnswer _ | .tgtStall _ | .leafReport _ | .rootResultReport _ | .localMemRequest _ _
  | .directoryRequest _ | .digestRead _ | .sigAdd _ | .loadPathRequest _ _ _ _ _ | .withdrawalNotice _ _
  | .noticeRelease _ | .tagHoldExpiry _ _ | .treeRequest _ | .treeFreezeApply _ | .treeRduConfirm _ _
  | .portGate _ | .unitArm _ _ _ | .portWake _ _ | .armingDeadline | .drainSum | .drainTimeout
  | .pretranslateWindow _ _ | .treeDescriptorLoad _ _ _ | .fipIssue _ _ | .programFetch _ _ _
  | .lddSlotWrite _ _ _ | .abort _ | .probeWriteVisible _ _ | .mcast _ _ _ | .reduce _ _ _ _ | .move _ _ _
  | .movex _ _ _ | .treeSetUp _ _ | .treeJoin _ _ | .treeLeave _ _ | .lddTensor _ _ | .lddProgram _ _
  | .stamp _ _ | .probe _ _ | .stage | .fencePort | .openPort | .fenceDomain | .openDomain | .powerOn
  | .powerOff | .turn | .drain => true
  | _ => false

/-- While the package is stopped or in reset, no command that acts on the data plane changes anything. -/
def Obligations.DataPlaneStands : Prop :=
  ∀ (c : Instr) (s : State), dataPlane c = true → s.fab.moving = false → exec c s = .next s

/-- Reset is held: FAB_RST_N is low, every unit holds its reset value, and no command that raises
FAB_RST_N waits. -/
def Sys2Proof.Machine.heldInReset (s : State) : Prop :=
  s.fab.boot.inReset = true ∧ s.fab.boot.rstN = false ∧ s.fab.nis = [] ∧ s.fab.stops = [] ∧ s.fab.fmu = {} ∧
  s.fab.time = {} ∧ s.fab.taux = {} ∧ s.fab.snap = none ∧ s.fab.frz = none ∧
  (∀ d, { s.fab.die d with pllLocked := false } = { ({} : DieSlice) with pllLocked := false }) ∧ Instr.fabRstRelease ∉ s.pending

/-- Whatever commands come while reset is held, and whatever time passes, every unit keeps its reset value
(18 R389; 20 R427). -/
def Obligations.ResetIsHeld : Prop :=
  ∀ s s' : State, heldInReset s → step s = .next s' → heldInReset s'

/-- Asserting FAB_RST_N leads into that state from every state (18 R389). -/
def Obligations.ResetBeginsHeld : Prop :=
  ∀ s s' : State, Instr.fabRstRelease ∉ s.pending → exec .fabRstAssert s = .next s' → heldInReset s'
end

