-- ==== Sys2Proof/Laws/State.lean ====
section
/-! SUPPORT. What each update of the fabric does to each of its fields, by definition. -/

namespace Sys2Proof.Machine

section
variable (f : Fabric) (p : Nat) (n : Ni)
@[simp] theorem Fabric.setNi_variant : (f.setNi p n).variant = f.variant := rfl
@[simp] theorem Fabric.setNi_time : (f.setNi p n).time = f.time := rfl
@[simp] theorem Fabric.setNi_taux : (f.setNi p n).taux = f.taux := rfl
@[simp] theorem Fabric.setNi_boot : (f.setNi p n).boot = f.boot := rfl
@[simp] theorem Fabric.setNi_bus : (f.setNi p n).bus = f.bus := rfl
@[simp] theorem Fabric.setNi_fmu : (f.setNi p n).fmu = f.fmu := rfl
@[simp] theorem Fabric.setNi_dies : (f.setNi p n).dies = f.dies := rfl
@[simp] theorem Fabric.setNi_stops : (f.setNi p n).stops = f.stops := rfl
@[simp] theorem Fabric.setNi_nis : (f.setNi p n).nis = f.nis.put p n := rfl
@[simp] theorem Fabric.setNi_snap : (f.setNi p n).snap = f.snap := rfl
@[simp] theorem Fabric.setNi_frz : (f.setNi p n).frz = f.frz := rfl
@[simp] theorem Fabric.setNi_freeCtr : (f.setNi p n).freeCtr = f.freeCtr := rfl
end

section
variable (f : Fabric) (k : Nat) (x : Stop)
@[simp] theorem Fabric.setStop_variant : (f.setStop k x).variant = f.variant := rfl
@[simp] theorem Fabric.setStop_time : (f.setStop k x).time = f.time := rfl
@[simp] theorem Fabric.setStop_taux : (f.setStop k x).taux = f.taux := rfl
@[simp] theorem Fabric.setStop_boot : (f.setStop k x).boot = f.boot := rfl
@[simp] theorem Fabric.setStop_bus : (f.setStop k x).bus = f.bus := rfl
@[simp] theorem Fabric.setStop_fmu : (f.setStop k x).fmu = f.fmu := rfl
@[simp] theorem Fabric.setStop_dies : (f.setStop k x).dies = f.dies := rfl
@[simp] theorem Fabric.setStop_stops : (f.setStop k x).stops = f.stops.put k x := rfl
@[simp] theorem Fabric.setStop_nis : (f.setStop k x).nis = f.nis := rfl
@[simp] theorem Fabric.setStop_snap : (f.setStop k x).snap = f.snap := rfl
@[simp] theorem Fabric.setStop_frz : (f.setStop k x).frz = f.frz := rfl
@[simp] theorem Fabric.setStop_freeCtr : (f.setStop k x).freeCtr = f.freeCtr := rfl
end

section
variable (f : Fabric) (d : Nat) (x : DieSlice)
@[simp] theorem Fabric.setDie_variant : (f.setDie d x).variant = f.variant := rfl
@[simp] theorem Fabric.setDie_time : (f.setDie d x).time = f.time := rfl
@[simp] theorem Fabric.setDie_taux : (f.setDie d x).taux = f.taux := rfl
@[simp] theorem Fabric.setDie_boot : (f.setDie d x).boot = f.boot := rfl
@[simp] theorem Fabric.setDie_bus : (f.setDie d x).bus = f.bus := rfl
@[simp] theorem Fabric.setDie_fmu : (f.setDie d x).fmu = f.fmu := rfl
@[simp] theorem Fabric.setDie_dies : (f.setDie d x).dies = f.dies.put d x := rfl
@[simp] theorem Fabric.setDie_stops : (f.setDie d x).stops = f.stops := rfl
@[simp] theorem Fabric.setDie_nis : (f.setDie d x).nis = f.nis := rfl
@[simp] theorem Fabric.setDie_snap : (f.setDie d x).snap = f.snap := rfl
@[simp] theorem Fabric.setDie_frz : (f.setDie d x).frz = f.frz := rfl
@[simp] theorem Fabric.setDie_freeCtr : (f.setDie d x).freeCtr = f.freeCtr := rfl
end

section
variable (f : Fabric) (p : Nat) (g : Ni → Ni)
@[simp] theorem Fabric.updNi_variant : (f.updNi p g).variant = f.variant := rfl
@[simp] theorem Fabric.updNi_time : (f.updNi p g).time = f.time := rfl
@[simp] theorem Fabric.updNi_taux : (f.updNi p g).taux = f.taux := rfl
@[simp] theorem Fabric.updNi_boot : (f.updNi p g).boot = f.boot := rfl
@[simp] theorem Fabric.updNi_bus : (f.updNi p g).bus = f.bus := rfl
@[simp] theorem Fabric.updNi_fmu : (f.updNi p g).fmu = f.fmu := rfl
@[simp] theorem Fabric.updNi_dies : (f.updNi p g).dies = f.dies := rfl
@[simp] theorem Fabric.updNi_stops : (f.updNi p g).stops = f.stops := rfl
@[simp] theorem Fabric.updNi_nis : (f.updNi p g).nis = f.nis.put p (g (f.ni p)) := rfl
@[simp] theorem Fabric.updNi_snap : (f.updNi p g).snap = f.snap := rfl
@[simp] theorem Fabric.updNi_frz : (f.updNi p g).frz = f.frz := rfl
@[simp] theorem Fabric.updNi_freeCtr : (f.updNi p g).freeCtr = f.freeCtr := rfl
end

section
variable (f : Fabric) (k : Nat) (g : Stop → Stop)
@[simp] theorem Fabric.updStop_variant : (f.updStop k g).variant = f.variant := rfl
@[simp] theorem Fabric.updStop_time : (f.updStop k g).time = f.time := rfl
@[simp] theorem Fabric.updStop_taux : (f.updStop k g).taux = f.taux := rfl
@[simp] theorem Fabric.updStop_boot : (f.updStop k g).boot = f.boot := rfl
@[simp] theorem Fabric.updStop_bus : (f.updStop k g).bus = f.bus := rfl
@[simp] theorem Fabric.updStop_fmu : (f.updStop k g).fmu = f.fmu := rfl
@[simp] theorem Fabric.updStop_dies : (f.updStop k g).dies = f.dies := rfl
@[simp] theorem Fabric.updStop_stops : (f.updStop k g).stops = f.stops.put k (g (f.stopU k)) := rfl
@[simp] theorem Fabric.updStop_nis : (f.updStop k g).nis = f.nis := rfl
@[simp] theorem Fabric.updStop_snap : (f.updStop k g).snap = f.snap := rfl
@[simp] theorem Fabric.updStop_frz : (f.updStop k g).frz = f.frz := rfl
@[simp] theorem Fabric.updStop_freeCtr : (f.updStop k g).freeCtr = f.freeCtr := rfl
end

section
variable (f : Fabric) (d : Nat) (g : DieSlice → DieSlice)
@[simp] theorem Fabric.updDie_variant : (f.updDie d g).variant = f.variant := rfl
@[simp] theorem Fabric.updDie_time : (f.updDie d g).time = f.time := rfl
@[simp] theorem Fabric.updDie_taux : (f.updDie d g).taux = f.taux := rfl
@[simp] theorem Fabric.updDie_boot : (f.updDie d g).boot = f.boot := rfl
@[simp] theorem Fabric.updDie_bus : (f.updDie d g).bus = f.bus := rfl
@[simp] theorem Fabric.updDie_fmu : (f.updDie d g).fmu = f.fmu := rfl
@[simp] theorem Fabric.updDie_dies : (f.updDie d g).dies = f.dies.put d (g (f.die d)) := rfl
@[simp] theorem Fabric.updDie_stops : (f.updDie d g).stops = f.stops := rfl
@[simp] theorem Fabric.updDie_nis : (f.updDie d g).nis = f.nis := rfl
@[simp] theorem Fabric.updDie_snap : (f.updDie d g).snap = f.snap := rfl
@[simp] theorem Fabric.updDie_frz : (f.updDie d g).frz = f.frz := rfl
@[simp] theorem Fabric.updDie_freeCtr : (f.updDie d g).freeCtr = f.freeCtr := rfl
end

section
variable (f : Fabric) (g : Fmu → Fmu)
@[simp] theorem Fabric.updFmu_variant : (f.updFmu g).variant = f.variant := rfl
@[simp] theorem Fabric.updFmu_time : (f.updFmu g).time = f.time := rfl
@[simp] theorem Fabric.updFmu_taux : (f.updFmu g).taux = f.taux := rfl
@[simp] theorem Fabric.updFmu_boot : (f.updFmu g).boot = f.boot := rfl
@[simp] theorem Fabric.updFmu_bus : (f.updFmu g).bus = f.bus := rfl
@[simp] theorem Fabric.updFmu_fmu : (f.updFmu g).fmu = g f.fmu := rfl
@[simp] theorem Fabric.updFmu_dies : (f.updFmu g).dies = f.dies := rfl
@[simp] theorem Fabric.updFmu_stops : (f.updFmu g).stops = f.stops := rfl
@[simp] theorem Fabric.updFmu_nis : (f.updFmu g).nis = f.nis := rfl
@[simp] theorem Fabric.updFmu_snap : (f.updFmu g).snap = f.snap := rfl
@[simp] theorem Fabric.updFmu_frz : (f.updFmu g).frz = f.frz := rfl
@[simp] theorem Fabric.updFmu_freeCtr : (f.updFmu g).freeCtr = f.freeCtr := rfl
end

section
variable (f : Fabric) (g : Time → Time)
@[simp] theorem Fabric.updTime_variant : (f.updTime g).variant = f.variant := rfl
@[simp] theorem Fabric.updTime_time : (f.updTime g).time = g f.time := rfl
@[simp] theorem Fabric.updTime_taux : (f.updTime g).taux = f.taux := rfl
@[simp] theorem Fabric.updTime_boot : (f.updTime g).boot = f.boot := rfl
@[simp] theorem Fabric.updTime_bus : (f.updTime g).bus = f.bus := rfl
@[simp] theorem Fabric.updTime_fmu : (f.updTime g).fmu = f.fmu := rfl
@[simp] theorem Fabric.updTime_dies : (f.updTime g).dies = f.dies := rfl
@[simp] theorem Fabric.updTime_stops : (f.updTime g).stops = f.stops := rfl
@[simp] theorem Fabric.updTime_nis : (f.updTime g).nis = f.nis := rfl
@[simp] theorem Fabric.updTime_snap : (f.updTime g).snap = f.snap := rfl
@[simp] theorem Fabric.updTime_frz : (f.updTime g).frz = f.frz := rfl
@[simp] theorem Fabric.updTime_freeCtr : (f.updTime g).freeCtr = f.freeCtr := rfl
end

section
variable (f : Fabric) (g : TimeAux → TimeAux)
@[simp] theorem Fabric.updAux_variant : (f.updAux g).variant = f.variant := rfl
@[simp] theorem Fabric.updAux_time : (f.updAux g).time = f.time := rfl
@[simp] theorem Fabric.updAux_taux : (f.updAux g).taux = g f.taux := rfl
@[simp] theorem Fabric.updAux_boot : (f.updAux g).boot = f.boot := rfl
@[simp] theorem Fabric.updAux_bus : (f.updAux g).bus = f.bus := rfl
@[simp] theorem Fabric.updAux_fmu : (f.updAux g).fmu = f.fmu := rfl
@[simp] theorem Fabric.updAux_dies : (f.updAux g).dies = f.dies := rfl
@[simp] theorem Fabric.updAux_stops : (f.updAux g).stops = f.stops := rfl
@[simp] theorem Fabric.updAux_nis : (f.updAux g).nis = f.nis := rfl
@[simp] theorem Fabric.updAux_snap : (f.updAux g).snap = f.snap := rfl
@[simp] theorem Fabric.updAux_frz : (f.updAux g).frz = f.frz := rfl
@[simp] theorem Fabric.updAux_freeCtr : (f.updAux g).freeCtr = f.freeCtr := rfl
end

section
variable (f : Fabric) (g : Boot → Boot)
@[simp] theorem Fabric.updBoot_variant : (f.updBoot g).variant = f.variant := rfl
@[simp] theorem Fabric.updBoot_time : (f.updBoot g).time = f.time := rfl
@[simp] theorem Fabric.updBoot_taux : (f.updBoot g).taux = f.taux := rfl
@[simp] theorem Fabric.updBoot_boot : (f.updBoot g).boot = g f.boot := rfl
@[simp] theorem Fabric.updBoot_bus : (f.updBoot g).bus = f.bus := rfl
@[simp] theorem Fabric.updBoot_fmu : (f.updBoot g).fmu = f.fmu := rfl
@[simp] theorem Fabric.updBoot_dies : (f.updBoot g).dies = f.dies := rfl
@[simp] theorem Fabric.updBoot_stops : (f.updBoot g).stops = f.stops := rfl
@[simp] theorem Fabric.updBoot_nis : (f.updBoot g).nis = f.nis := rfl
@[simp] theorem Fabric.updBoot_snap : (f.updBoot g).snap = f.snap := rfl
@[simp] theorem Fabric.updBoot_frz : (f.updBoot g).frz = f.frz := rfl
@[simp] theorem Fabric.updBoot_freeCtr : (f.updBoot g).freeCtr = f.freeCtr := rfl
end

section
variable (f : Fabric) (g : Turn → Turn)
@[simp] theorem Fabric.updTurn_variant : (f.updTurn g).variant = f.variant := rfl
@[simp] theorem Fabric.updTurn_time : (f.updTurn g).time = f.time := rfl
@[simp] theorem Fabric.updTurn_taux : (f.updTurn g).taux = f.taux := rfl
@[simp] theorem Fabric.updTurn_boot : (f.updTurn g).boot = f.boot := rfl
@[simp] theorem Fabric.updTurn_bus : (f.updTurn g).bus = f.bus := rfl
@[simp] theorem Fabric.updTurn_fmu : (f.updTurn g).fmu = { f.fmu with turn := g f.fmu.turn } := rfl
@[simp] theorem Fabric.updTurn_dies : (f.updTurn g).dies = f.dies := rfl
@[simp] theorem Fabric.updTurn_stops : (f.updTurn g).stops = f.stops := rfl
@[simp] theorem Fabric.updTurn_nis : (f.updTurn g).nis = f.nis := rfl
@[simp] theorem Fabric.updTurn_snap : (f.updTurn g).snap = f.snap := rfl
@[simp] theorem Fabric.updTurn_frz : (f.updTurn g).frz = f.frz := rfl
@[simp] theorem Fabric.updTurn_freeCtr : (f.updTurn g).freeCtr = f.freeCtr := rfl
end

section
variable (f : Fabric) (g : Results → Results)
@[simp] theorem Fabric.updRes_variant : (f.updRes g).variant = f.variant := rfl
@[simp] theorem Fabric.updRes_time : (f.updRes g).time = f.time := rfl
@[simp] theorem Fabric.updRes_taux : (f.updRes g).taux = f.taux := rfl
@[simp] theorem Fabric.updRes_boot : (f.updRes g).boot = f.boot := rfl
@[simp] theorem Fabric.updRes_bus : (f.updRes g).bus = f.bus := rfl
@[simp] theorem Fabric.updRes_fmu : (f.updRes g).fmu = { f.fmu with res := g f.fmu.res } := rfl
@[simp] theorem Fabric.updRes_dies : (f.updRes g).dies = f.dies := rfl
@[simp] theorem Fabric.updRes_stops : (f.updRes g).stops = f.stops := rfl
@[simp] theorem Fabric.updRes_nis : (f.updRes g).nis = f.nis := rfl
@[simp] theorem Fabric.updRes_snap : (f.updRes g).snap = f.snap := rfl
@[simp] theorem Fabric.updRes_frz : (f.updRes g).frz = f.frz := rfl
@[simp] theorem Fabric.updRes_freeCtr : (f.updRes g).freeCtr = f.freeCtr := rfl
end

section
variable (f : Fabric) (w : Word) (e : Bool)
@[simp] theorem Fabric.busReply_variant : (f.busReply w e).variant = f.variant := rfl
@[simp] theorem Fabric.busReply_time : (f.busReply w e).time = f.time := rfl
@[simp] theorem Fabric.busReply_taux : (f.busReply w e).taux = f.taux := rfl
@[simp] theorem Fabric.busReply_boot : (f.busReply w e).boot = f.boot := rfl
@[simp] theorem Fabric.busReply_bus : (f.busReply w e).bus = { f.bus with rdata := w, err := e } := rfl
@[simp] theorem Fabric.busReply_fmu : (f.busReply w e).fmu = f.fmu := rfl
@[simp] theorem Fabric.busReply_dies : (f.busReply w e).dies = f.dies := rfl
@[simp] theorem Fabric.busReply_stops : (f.busReply w e).stops = f.stops := rfl
@[simp] theorem Fabric.busReply_nis : (f.busReply w e).nis = f.nis := rfl
@[simp] theorem Fabric.busReply_snap : (f.busReply w e).snap = f.snap := rfl
@[simp] theorem Fabric.busReply_frz : (f.busReply w e).frz = f.frz := rfl
@[simp] theorem Fabric.busReply_freeCtr : (f.busReply w e).freeCtr = f.freeCtr := rfl
end

section
variable (f : Fabric) 
@[simp] theorem Fabric.draw_variant : f.draw.variant = f.variant := rfl
@[simp] theorem Fabric.draw_time : f.draw.time = f.time := rfl
@[simp] theorem Fabric.draw_taux : f.draw.taux = f.taux := rfl
@[simp] theorem Fabric.draw_boot : f.draw.boot = f.boot := rfl
@[simp] theorem Fabric.draw_bus : f.draw.bus = f.bus := rfl
@[simp] theorem Fabric.draw_fmu : f.draw.fmu = f.fmu := rfl
@[simp] theorem Fabric.draw_dies : f.draw.dies = f.dies := rfl
@[simp] theorem Fabric.draw_stops : f.draw.stops = f.stops := rfl
@[simp] theorem Fabric.draw_nis : f.draw.nis = f.nis := rfl
@[simp] theorem Fabric.draw_snap : f.draw.snap = f.snap := rfl
@[simp] theorem Fabric.draw_frz : f.draw.frz = f.frz := rfl
@[simp] theorem Fabric.draw_freeCtr : f.draw.freeCtr = f.freeCtr + 1 := rfl
end

/-! ## The state -/

@[simp] theorem State.run_eq (s : State) (g : Fabric → Fabric) : s.run g = .next { s with fab := g s.fab } := rfl
@[simp] theorem Fabric.when_true (f : Fabric) (g : Fabric → Fabric) : f.when true g = g f := rfl
@[simp] theorem Fabric.when_false (f : Fabric) (g : Fabric → Fabric) : f.when false g = f := rfl
theorem Fabric.when_of {f : Fabric} {c : Bool} (g : Fabric → Fabric) (h : c = true) : f.when c g = g f := by
  rw [h]; rfl
theorem Fabric.when_not {f : Fabric} {c : Bool} (g : Fabric → Fabric) (h : c = false) : f.when c g = f := by
  rw [h]; rfl

/-! ## Results (00 R14) -/

@[simp] theorem Result.publish_valid (r : Result) (ws : List Word) : (r.publish ws).valid = true := rfl
@[simp] theorem Result.publish_seq (r : Result) (ws : List Word) : (r.publish ws).seq = r.seq + 1 := rfl
@[simp] theorem Result.publish_words (r : Result) (ws : List Word) : (r.publish ws).words = ws := rfl
@[simp] theorem Result.ack_valid (r : Result) : r.ack.valid = false := rfl
@[simp] theorem Result.ack_seq (r : Result) : r.ack.seq = r.seq := rfl
@[simp] theorem Result.ack_words (r : Result) : r.ack.words = r.words := rfl
@[simp] theorem Result.start_valid (r : Result) : r.start.valid = false := rfl
@[simp] theorem Result.start_seq (r : Result) : r.start.seq = r.seq := rfl
@[simp] theorem Result.start_words (r : Result) : r.start.words = r.words := rfl

end Sys2Proof.Machine
end

