-- ==== Sys2Proof/Laws/Maps.lean ====
section
/-! SUPPORT. Tables: what reads after writes give, and the rising order of the keys. -/

namespace Sys2Proof.Machine

section
variable {α : Type}

@[simp] theorem NMap.find?_nil (k : Nat) : NMap.find? ([] : NMap α) k = none := rfl

@[simp] theorem NMap.find?_put_self (m : NMap α) (k : Nat) (x : α) : (NMap.put m k x).find? k = some x := by
  induction m with
  | nil => simp [NMap.put, NMap.find?]
  | cons e m ih =>
    obtain ⟨a, y⟩ := e
    simp only [NMap.put]
    split
    · simp [NMap.find?]
    · split
      · simp [NMap.find?]
      · rename_i h _
        simp [NMap.find?, h, ih]

theorem NMap.find?_put_ne (m : NMap α) {k j : Nat} (x : α) (h : j ≠ k) :
    (NMap.put m k x).find? j = NMap.find? m j := by
  induction m with
  | nil => simp [NMap.put, NMap.find?, Ne.symm h]
  | cons e m ih =>
    obtain ⟨a, y⟩ := e
    simp only [NMap.put]
    split
    · rename_i h1
      simp [NMap.find?, Ne.symm h, h1]
    · split
      · simp [NMap.find?, Ne.symm h]
      · simp only [NMap.find?]
        split
        · rfl
        · exact ih

@[simp] theorem NMap.get_put_self (m : NMap α) (k : Nat) (x d : α) : (NMap.put m k x).get k d = x := by
  simp [NMap.get]

theorem NMap.get_put_ne (m : NMap α) {k j : Nat} (x d : α) (h : j ≠ k) :
    (NMap.put m k x).get j d = NMap.get m j d := by
  simp [NMap.get, NMap.find?_put_ne m x h]

@[simp] theorem NMap.find?_del_self (m : NMap α) (k : Nat) : (NMap.del m k).find? k = none := by
  induction m with
  | nil => rfl
  | cons e m ih =>
    obtain ⟨a, y⟩ := e
    simp only [NMap.del]
    split
    · exact ih
    · rename_i h
      simp [NMap.find?, h, ih]

theorem NMap.find?_del_ne (m : NMap α) {k j : Nat} (h : j ≠ k) : (NMap.del m k).find? j = NMap.find? m j := by
  induction m with
  | nil => rfl
  | cons e m ih =>
    obtain ⟨a, y⟩ := e
    simp only [NMap.del]
    split
    · rename_i h1
      have h2 : a ≠ j := fun h3 => h (h3 ▸ h1)
      simp [NMap.find?, h2, ih]
    · simp only [NMap.find?]
      split
      · rfl
      · exact ih

@[simp] theorem NMap.get_upd_self (m : NMap α) (k : Nat) (d : α) (g : α → α) :
    (NMap.upd m k d g).get k d = g (m.get k d) := by
  simp [NMap.upd]

theorem NMap.get_upd_ne (m : NMap α) {k j : Nat} (d e : α) (g : α → α) (h : j ≠ k) :
    (NMap.upd m k d g).get j e = NMap.get m j e := NMap.get_put_ne m _ e h

end

/-! ## Units -/

@[simp] theorem Fabric.updNi_ni_self (f : Fabric) (p : Nat) (g : Ni → Ni) : (f.updNi p g).ni p = g (f.ni p) := by
  simp [Fabric.ni]
theorem Fabric.updNi_ni_ne (f : Fabric) {p q : Nat} (g : Ni → Ni) (h : q ≠ p) : (f.updNi p g).ni q = f.ni q := by
  simp [Fabric.ni, NMap.get_put_ne _ _ _ h]
@[simp] theorem Fabric.updStop_stop_self (f : Fabric) (s : Nat) (g : Stop → Stop) :
    (f.updStop s g).stopU s = g (f.stopU s) := by
  simp [Fabric.stopU]
theorem Fabric.updStop_stop_ne (f : Fabric) {s t : Nat} (g : Stop → Stop) (h : t ≠ s) :
    (f.updStop s g).stopU t = f.stopU t := by
  simp [Fabric.stopU, NMap.get_put_ne _ _ _ h]
@[simp] theorem Fabric.updDie_die_self (f : Fabric) (d : Nat) (g : DieSlice → DieSlice) :
    (f.updDie d g).die d = g (f.die d) := by
  simp [Fabric.die]
theorem Fabric.updDie_die_ne (f : Fabric) {d e : Nat} (g : DieSlice → DieSlice) (h : e ≠ d) :
    (f.updDie d g).die e = f.die e := by
  simp [Fabric.die, NMap.get_put_ne _ _ _ h]
@[simp] theorem Fabric.updNi_stop (f : Fabric) (p : Nat) (g : Ni → Ni) (s : Nat) : (f.updNi p g).stopU s = f.stopU s := rfl
@[simp] theorem Fabric.updNi_die (f : Fabric) (p : Nat) (g : Ni → Ni) (d : Nat) : (f.updNi p g).die d = f.die d := rfl
@[simp] theorem Fabric.updStop_ni (f : Fabric) (s : Nat) (g : Stop → Stop) (p : Nat) : (f.updStop s g).ni p = f.ni p := rfl
@[simp] theorem Fabric.updStop_die (f : Fabric) (s : Nat) (g : Stop → Stop) (d : Nat) : (f.updStop s g).die d = f.die d := rfl
@[simp] theorem Fabric.updFmu_ni (f : Fabric) (g : Fmu → Fmu) (p : Nat) : (f.updFmu g).ni p = f.ni p := rfl
@[simp] theorem Fabric.updFmu_stop (f : Fabric) (g : Fmu → Fmu) (s : Nat) : (f.updFmu g).stopU s = f.stopU s := rfl
@[simp] theorem Fabric.updFmu_die (f : Fabric) (g : Fmu → Fmu) (d : Nat) : (f.updFmu g).die d = f.die d := rfl
@[simp] theorem Fabric.busReply_ni (f : Fabric) (w : Word) (e : Bool) (p : Nat) : (f.busReply w e).ni p = f.ni p := rfl
@[simp] theorem Fabric.busReply_stop (f : Fabric) (w : Word) (e : Bool) (s : Nat) : (f.busReply w e).stopU s = f.stopU s := rfl

end Sys2Proof.Machine
end

