-- ==== Sys2Proof/Laws/Memory.lean ====
section
/-! SUPPORT. Core-local memory: reads after writes, and the canonical form that every operation
keeps. -/

namespace Sys2Proof.Machine

theorem Mem.above_mono {m : Mem} {a b : Nat} (h : Mem.above m b = true) (hab : a ≤ b) : Mem.above m a = true := by
  cases m with
  | nil => rfl
  | cons e m =>
    obtain ⟨c, d⟩ := e
    simp only [Mem.above, Bool.and_eq_true, decide_eq_true_eq] at h ⊢
    exact ⟨by omega, h.2⟩

theorem Mem.above_putByte {m : Mem} {a b : Nat} {x : Byte} (h : Mem.above m b = true) (hab : b < a) :
    Mem.above (m.putByte a x) b = true := by
  induction m generalizing b with
  | nil => simp [Mem.putByte, Mem.above, hab]
  | cons e m ih =>
    obtain ⟨c, d⟩ := e
    simp only [Mem.above, Bool.and_eq_true, decide_eq_true_eq] at h
    simp only [Mem.putByte]
    split
    · rename_i hc
      subst hc
      simp [Mem.above, hab, h.2]
    · split
      · rename_i hlt
        simp [Mem.above, hab, hlt, h.2]
      · rename_i h1 h2
        simp only [Mem.above, Bool.and_eq_true, decide_eq_true_eq]
        exact ⟨h.1, ih h.2 (by omega)⟩

/-- Writing a byte keeps the canonical form. -/
theorem Mem.wf_putByte {m : Mem} (h : m.wf = true) (a : Nat) (x : Byte) : (m.putByte a x).wf = true := by
  cases m with
  | nil => rfl
  | cons e m =>
    obtain ⟨c, d⟩ := e
    simp only [Mem.wf] at h
    simp only [Mem.putByte]
    split
    · rename_i hc
      subst hc
      exact h
    · split
      · rename_i hlt
        simp [Mem.wf, Mem.above, hlt, h]
      · simp only [Mem.wf]
        exact Mem.above_putByte h (by omega)

/-- Writing bytes keeps the canonical form. -/
theorem Mem.wf_write {m : Mem} (h : m.wf = true) (a : Nat) (bs : Bytes) : (m.write a bs).wf = true := by
  induction bs generalizing m a with
  | nil => exact h
  | cons b bs ih => exact ih (Mem.wf_putByte h a b) (a + 1)

@[simp] theorem Mem.read_putByte_self (m : Mem) (a : Nat) (x : Byte) : (m.putByte a x).read a = some x := by
  induction m with
  | nil => simp [Mem.putByte, Mem.read]
  | cons e m ih =>
    obtain ⟨c, d⟩ := e
    simp only [Mem.putByte]
    split
    · simp [Mem.read]
    · split
      · simp [Mem.read]
      · rename_i h _
        simp [Mem.read, h, ih]

theorem Mem.read_putByte_ne (m : Mem) {a b : Nat} (x : Byte) (h : b ≠ a) : (m.putByte a x).read b = m.read b := by
  induction m with
  | nil => simp [Mem.putByte, Mem.read, Ne.symm h]
  | cons e m ih =>
    obtain ⟨c, d⟩ := e
    simp only [Mem.putByte]
    split
    · rename_i hc
      subst hc
      simp [Mem.read, Ne.symm h]
    · split
      · simp [Mem.read, Ne.symm h]
      · simp only [Mem.read]
        split
        · rfl
        · exact ih

/-- Bytes outside a write are unchanged. -/
theorem Mem.read_write_ne (m : Mem) (a : Nat) (bs : Bytes) {b : Nat} (h : b < a ∨ a + bs.length ≤ b) :
    (m.write a bs).read b = m.read b := by
  induction bs generalizing m a with
  | nil => rfl
  | cons x bs ih =>
    simp only [List.length_cons] at h
    simp only [Mem.write]
    rw [ih _ _ (by omega), Mem.read_putByte_ne _ _ (by omega)]

/-- Bytes inside a write are the ones written. -/
theorem Mem.read_write_in (m : Mem) (a : Nat) (bs : Bytes) {i : Nat} (h : i < bs.length) :
    (m.write a bs).read (a + i) = some bs[i] := by
  induction bs generalizing m a i with
  | nil => simp at h
  | cons x bs ih =>
    simp only [Mem.write]
    cases i with
    | zero =>
      rw [Mem.read_write_ne _ _ _ (by omega)]
      simp
    | succ i =>
      have := ih (m.putByte a x) (a + 1) (i := i) (by simpa using h)
      simpa [Nat.add_assoc, Nat.add_comm 1 i] using this

/-- The memories of the machine after reset have the canonical form. -/
theorem Fabric.memOk_reset : State.reset.fab.memOk = true := rfl

end Sys2Proof.Machine
end

