-- ==== Sys2Proof/Laws/Sequencer.lean ====
section
/-! SUPPORT. What an update of a channel and an op's leaving it change: the NI or the FMU that holds the
channel, and nothing else of the fabric. -/

namespace Sys2Proof.Machine

variable (f : Fabric) (w : Seqr) (g : Chan → Chan) (k : Counter → Counter) (n : Nat) (op : Op)

/-- The parts of the fabric that no channel and no counter is part of. -/
def Fabric.rest (f : Fabric) :=
  (f.variant, f.time, f.taux, f.boot, f.bus, f.dies, f.stops, f.snap, f.frz, f.freeCtr)

@[simp] theorem Fabric.updChan_rest : (f.updChan w g).rest = f.rest := by cases w <;> rfl
@[simp] theorem Fabric.updCtr_rest : (f.updCtr w n k).rest = f.rest := by cases w <;> rfl

/-- A channel of an NI leaves the FMU alone, and the FMU's leaves every NI alone. -/
@[simp] theorem Fabric.updChan_tsq_fmu (p c : Nat) : (f.updChan (.tsq p c) g).fmu = f.fmu := rfl
@[simp] theorem Fabric.updChan_fmu_nis : (f.updChan .fmu g).nis = f.nis := rfl
@[simp] theorem Fabric.updChan_fmu_chan : (f.updChan .fmu g).chan .fmu = g (f.chan .fmu) := rfl

/-- An op that passes its channel on marks the fc, unless it is a NOP, a SIGNAL or a management op
(07 R162, R168). -/
theorem Fabric.passOn_eq : f.passOn w op = f ∨
    f.passOn w op = f.updChan w fun c => { c with passedAt := some f.time.fcc } := by
  unfold Fabric.passOn
  split
  · exact .inl rfl
  · exact .inr rfl

@[simp] theorem Fabric.passOn_rest : (f.passOn w op).rest = f.rest := by
  rcases f.passOn_eq w op with h | h <;> simp [h]

/-- An op that leaves its queue changes its channel and its counter only. -/
theorem Fabric.retire_rest (e : QEntry) (st : Status) (info : BitVec 48) :
    (f.retire w e st info).rest = f.rest := by
  have h : ∀ b : Bool, (if b then f else f.passOn w e.op).rest = f.rest := by
    intro b; cases b <;> simp
  unfold Fabric.retire
  dsimp only
  split
  · subst_vars
    change (Fabric.updCtr _ _ _ _).rest = _
    simp [h]
  · simp [h]

end Sys2Proof.Machine
end

