-- ==== Sys2Proof/WellFormed.lean ====
section
/-! DEFINITION. Well-formed commands: every operand names a unit of the largest variant and lies in
the range the specification gives it (00 R3, R10, R11; 05 R107, R110; 07 R151; 08 R201; 20 R426). A
command that is not well-formed changes nothing or is refused by its meaning; the variant's own
limits are checked there. -/

namespace Sys2Proof

/-- Numbers of stops, ports and dies (00 R10, R11), of TSQ channels (07 R151), of inputs and VCs of a
stop (05 R103, R107). -/
def stopNo (s : Nat) : Bool := s < 256
def portNo (p : Nat) : Bool := p < 1024
def dieNo (d : Nat) : Bool := d < 4
def chanNo (c : Nat) : Bool := c < 16
def inputNo (i : Nat) : Bool := i < 8
def vcNo (v : Nat) : Bool := v < 12
def ringNo (o : Nat) : Bool := o < 4

/-- A bus address: 32 bits (20 R426). -/
def busAddr (a : Nat) : Bool := a < 2 ^ 32

/-- Wire positions that a flit carries, and wires of a link (05 R110). -/
def noiseOk (l : List Nat) : Bool := l.all fun i => i < 1128
def wiresOk (l : List Nat) : Bool := l.all fun w => w < 1152

/-- A measured X (06 R137). -/
def measuredX (x : Nat) : Bool := 11 ≤ x && x ≤ 23

/-- A packet of at most 33 flits, 4,096 bytes of body and 64 bytes in its DATA area (03 R72, R75). -/
def Packet.sized (p : Packet) : Bool := p.body.length ≤ 4096 && p.area.length ≤ 64

def Seqr.ok : Seqr → Bool
  | .tsq p c => portNo p && chanNo c
  | .fmu => true
def LinkEnd.ok : LinkEnd → Bool
  | .stopIn s i => stopNo s && inputNo i
  | .niIn p => portNo p
def UnitId.ok : UnitId → Bool
  | .fmu => true
  | .slice d => dieNo d
  | .stop s => stopNo s
  | .ni p => portNo p

/-- A well-formed command. -/
def Instr.wf : Instr → Bool
  | .fipIssue p _ => portNo p
  | .programFetch p c _ => portNo p && chanNo c
  | .nop w => w.ok
  | .lddTensor p c => portNo p && chanNo c
  | .lddSlotWrite p c _ => portNo p && chanNo c
  | .lddProgram p c => portNo p && chanNo c
  | .move p c _ => portNo p && chanNo c
  | .movex p c _ => portNo p && chanNo c
  | .mcast p c _ => portNo p && chanNo c
  | .reduce p c _ _ => portNo p && chanNo c
  | .treeSetUp p c => portNo p && chanNo c
  | .treeJoin p c => portNo p && chanNo c
  | .treeLeave p c => portNo p && chanNo c
  | .signal w => w.ok
  | .wait w => w.ok
  | .waitTimeout w => w.ok
  | .fence w => w.ok
  | .abort p => portNo p
  | .stamp p c => portNo p && chanNo c
  | .probe p c => portNo p && chanNo c
  | .probeWriteVisible p c => portNo p && chanNo c
  | .pretranslateWindow p c => portNo p && chanNo c
  | .walkAnswer p x => portNo p && x.sized
  | .niInject p => portNo p
  | .stopHeadArrival s i v => stopNo s && inputNo i && vcNo v
  | .leafSlotExamine s i v => stopNo s && inputNo i && vcNo v
  | .leafReport p => portNo p
  | .flitReceive e l => e.ok && noiseOk l
  | .ackTimerExpiry e => e.ok
  | .linkSilenceTimeout e => e.ok
  | .answerConsume p => portNo p
  | .initiatorTimeout p _ _ _ => portNo p
  | .sigAdd p => portNo p
  | .targetRequest p => portNo p
  | .tgtLineResponse p _ _ d => portNo p && (d.length == 0 || d.length == 128)
  | .scrubReport p _ _ => portNo p
  | .datAnswer p => portNo p
  | .localMemRequest p d => portNo p && d.length ≤ 4096
  | .withdrawalNotice p x => portNo p && x.sized
  | .noticeRelease p => portNo p
  | .directoryRequest p => portNo p
  | .digestRead x => x.sized
  | .treeRequest d => dieNo d
  | .treeRduConfirm d s => dieNo d && stopNo s
  | .treeFreezeApply d => dieNo d
  | .rduContrib s i v => stopNo s && inputNo i && vcNo v
  | .rootResultReport p => portNo p
  | .rdDoneConsume p => portNo p
  | .rduHoldTimeout s b => stopNo s && b < 32
  | .gwEgress p => portNo p
  | .gwTransportHandoff p => portNo p
  | .gwIngress p x => portNo p && x.sized
  | .gwRdDoneFanout p => portNo p
  | .transportFailure p x => portNo p && x.sized
  | .xcreditReceive p _ => portNo p
  | .tokenIdleReturn p t => portNo p && portNo t
  | .sinkStall s o => stopNo s && inputNo o && !ringNo o
  | .tgtStall p => portNo p
  | .gwStall p => portNo p
  | .mgtOpReceive u => u.ok
  | .mgtRspReceive u => u.ok
  | .faultSend u => u.ok
  | .faultEvaluate => true
  | .fabErrPulseEnd => true
  | .cntGatherReceive s => stopNo s
  | .cntDataReceive s => stopNo s
  | .stage => true
  | .check => true
  | .turn => true
  | .unitArm u _ l => u.ok && l.length ≤ 4 && l.all measuredX
  | .armingDeadline => true
  | .unitDisarm u => u.ok
  | .disarmDeadline => true
  | .turnCancel => true
  | .turnSwap => true
  | .turnOutcome => true
  | .drain => true
  | .drainSum => true
  | .drainTimeout => true
  | .portGate p => portNo p
  | .fencePort => true
  | .openPort => true
  | .fenceDomain => true
  | .openDomain => true
  | .fencepComplete => true
  | .snapFreeze => true
  | .snapStop => true
  | .counterFreeze => true
  | .globalStop => true
  | .snapshotPublish => true
  | .resume => true
  | .spareWire => true
  | .spareRetrain => true
  | .retrainComplete s o _ l x => stopNo s && ringNo o && wiresOk l && measuredX x
  | .spareBank => true
  | .spareSlice => true
  | .spareBypass => true
  | .spareRestore => true
  | .spareGateway => true
  | .spareTree => true
  | .powerOn => true
  | .powerOff => true
  | .portWake p _ => portNo p
  | .autoRepair => true
  | .fmuProgWrite _ => true
  | .milestoneBoundary => true
  | .msTick _ => true
  | .countFrame _ _ => true
  | .treeMarker d _ _ => dieNo d
  | .alignStart => true
  | .alignEcho d a b c => dieNo d && a ≤ b && b ≤ c
  | .alignEchoTimeout d => dieNo d
  | .timestampExchange d _ _ _ _ => dieNo d
  | .alignFrameTimeout => true
  | .realign => true
  | .linkTrainPhaseEnd s o l _ x => stopNo s && ringNo o && wiresOk l && measuredX x
  | .fabPgChange d _ => dieNo d
  | .fabRstAssert => true
  | .fabRstRelease => true
  | .pllLock d => dieNo d
  | .pllLockTimeout d => dieNo d
  | .pllUnlock d => dieNo d
  | .meterRefill => true
  | .queueSample => true
  | .opSample p c => portNo p && chanNo c
  | .digestPublish => true
  | .ndetPublish => true
  | .faultForce u _ => u.ok
  | .skewAck d => dieNo d
  | .digestAck => true
  | .ndetAck => true
  | .chkAck => true
  | .turnStatAck => true
  | .drainStatAck => true
  | .flogAck => true
  | .snapStatAck => true
  | .wearLastAck => true
  | .frzAck => true
  | .boardAck => true
  | .busErrAck => true
  | .traceRptrWrite d _ => dieNo d
  | .tblDataAccess u _ => u.ok
  | .fccLoRead => true
  | .counterLoRead a => busAddr a
  | .counterRecordRead a => busAddr a
  | .dsrRead => true
  | .registerWrite a _ => busAddr a
  | .busAccessTimeout a _ => busAddr a
  | .loadPathRequest p e a n w => portNo p && e < 4 && a < 2 ^ 57 && 1 ≤ n && n ≤ 4096 &&
      (match w with | some bs => bs.length == n | none => true)
  | .lineRequestTaken p => portNo p
  | .answerPoolRelease p => portNo p
  | .treeDescriptorLoad p c _ => portNo p && chanNo c
  | .tagHoldExpiry p _ => portNo p

end Sys2Proof
end

