-- ==== Sys2Proof/Tests/Slice0.lean ====
section
/-! SUPPORT. Small tests of the model: ill-formed commands that WellFormed refuses, the worked examples
of the specification, and witnesses that the hypotheses of the statements are met, at the boundary
values of their clauses. -/

namespace Sys2Proof.Tests
open Sys2Proof Sys2Proof.Machine
set_option Elab.async false

/-! ## Well-formed commands: each check refuses an ill-formed term -/

theorem test_wf_port_chan : (Instr.nop (.tsq 1023 15)).wf = true ∧ (Instr.nop (.tsq 1024 0)).wf = false ∧
    (Instr.nop (.tsq 0 16)).wf = false ∧ (Instr.niInject 1024).wf = false ∧
    (Instr.move 0 16 []).wf = false ∧ (Instr.tokenIdleReturn 0 1024).wf = false := by decide
theorem test_wf_stop_input_vc : (Instr.stopHeadArrival 255 7 11).wf = true ∧ (Instr.stopHeadArrival 256 0 0).wf = false ∧
    (Instr.stopHeadArrival 0 8 0).wf = false ∧ (Instr.rduContrib 0 0 12).wf = false := by decide
theorem test_wf_die : (Instr.treeRequest 3).wf = true ∧ (Instr.treeRequest 4).wf = false ∧
    (Instr.faultForce (.slice 4) 0).wf = false ∧ (Instr.faultForce (.stop 256) 0).wf = false ∧
    (Instr.faultForce (.ni 1024) 0).wf = false := by decide
theorem test_wf_bus_address : (Instr.registerWrite 0xFFFFFFFC 0).wf = true ∧
    (Instr.registerWrite 0x100000000 0).wf = false := by decide
theorem test_wf_noise_and_wires : (Instr.flitReceive (.stopIn 0 7) [1127]).wf = true ∧
    (Instr.flitReceive (.stopIn 0 7) [1128]).wf = false ∧ (Instr.flitReceive (.stopIn 0 8) []).wf = false ∧
    (Instr.linkTrainPhaseEnd 0 3 [1151] true 11).wf = true ∧ (Instr.linkTrainPhaseEnd 0 3 [1152] true 11).wf = false ∧
    (Instr.linkTrainPhaseEnd 0 4 [] true 11).wf = false := by decide
theorem test_wf_measured_x : (Instr.retrainComplete 0 0 true [] 23).wf = true ∧
    (Instr.retrainComplete 0 0 true [] 24).wf = false ∧ (Instr.retrainComplete 0 0 true [] 10).wf = false ∧
    (Instr.unitArm .fmu true [11, 11, 11, 11]).wf = true ∧ (Instr.unitArm .fmu true [11, 11, 11, 11, 11]).wf = false := by
  decide
theorem test_wf_packet_size : (Instr.walkAnswer 0 { area := List.replicate 64 0 }).wf = true ∧
    (Instr.walkAnswer 0 { area := List.replicate 65 0 }).wf = false := by decide
theorem test_wf_line_and_sink : (Instr.tgtLineResponse 2 0 0 []).wf = true ∧ (Instr.tgtLineResponse 2 0 0 [1]).wf = false ∧
    (Instr.sinkStall 0 4).wf = true ∧ (Instr.sinkStall 0 3).wf = false ∧ (Instr.rduHoldTimeout 0 31).wf = true ∧
    (Instr.rduHoldTimeout 0 32).wf = false ∧ (Instr.alignEcho 1 5 4 6).wf = false := by decide
theorem test_wf_load_path : (Instr.loadPathRequest 0 3 0 1 none).wf = true ∧
    (Instr.loadPathRequest 0 4 0 1 none).wf = false ∧ (Instr.loadPathRequest 0 3 (2 ^ 57) 1 none).wf = false ∧
    (Instr.loadPathRequest 0 3 0 0 none).wf = false ∧ (Instr.loadPathRequest 0 3 0 4097 none).wf = false ∧
    (Instr.loadPathRequest 0 3 0 2 (some [1])).wf = false := by decide
theorem test_wf_body_size : (Instr.walkAnswer 0 { body := List.replicate 4096 0 }).wf = true ∧
    (Instr.walkAnswer 0 { body := List.replicate 4097 0 }).wf = false ∧
    (Instr.localMemRequest 0 (List.replicate 4097 0)).wf = false := by decide +kernel

/-! ## Worked examples of the specification -/

/-- 00 R9-R11 and 12: port (12, 2).1 of T4; 20 R443's example: stop (10, 14). -/
theorem test_port_numbers : stopAt 12 2 = 84 ∧ 4 * stopAt 12 2 + 1 = 337 ∧ stopAt 10 14 = 242 ∧ stopAt 11 5 = 107 ∧
    stopOfPort 430 = 107 ∧ localOfPort 430 = 2 ∧ dieOfPort 970 = 3 ∧ xOf 117 = 13 ∧ yOf 117 = 6 := by decide

/-- The table of 20 R431. -/
theorem test_caps : (({} : Fabric).regWord .fmu 0x8, ({} : Fabric).regWord .fmu 0x14, ({} : Fabric).regWord .fmu 0x18) =
      (0xE0000000, 0x00400800, 0x80100800) ∧
    (({ variant := .t2 } : Fabric).regWord .fmu 0x8, ({ variant := .t2 } : Fabric).regWord .fmu 0x14,
      ({ variant := .t2 } : Fabric).regWord .fmu 0x18) = (0xC0000000, 0x00200400, 0x40080400) ∧
    (({ variant := .t1 } : Fabric).regWord .fmu 0x8, ({ variant := .t1 } : Fabric).regWord .fmu 0x14,
      ({ variant := .t1 } : Fabric).regWord .fmu 0x18) = (0x10000000, 0x00100200, 0x20040200) := by decide +kernel

/-- The addresses of the example of chapter 20, and `STP_ID` of stop 242. -/
theorem test_block_addresses : blockOf 0x1F2044 = some (.stop 242, 0x44) ∧ blockOf 0x550040 = some (.ni 84, 0x40) ∧
    ({} : Fabric).regWord (.stop 242) 0 = 0xC00332F2 := by decide +kernel

/-- The entry of the tied row leg (chapter 04): eject, ports 0-2 valid. -/
theorem test_hop_entries : hopActOf 0xE0000007 = some .eject ∧ hopActOf 0xC0000000 = some .minusY ∧
    hopActOf 0xA0000000 = some .plusY := by decide +kernel

/-- The load of chapter 03, encoded: request and response. -/
def exampleLoad : Header := Header.seal {
  cls := 2, epoch := 1, domain := 5, op := 0x3F, tag := 0x2A, dest := 0x4B6A, src := 0x488D, rport := 874, bcnt := 64
  addr := 0x01800000E040 }
theorem test_request_header : Header.toBits exampleLoad =
    0x4817F040_0000002A_00004B6A_0000488D_0000000D_A8080000_01800000_E040F25F := by decide +kernel
theorem test_response_header : Header.toBits (Header.seal {
      cls := 3, epoch := 1, domain := 5, op := 0x3F, kind := 2, echo := 1, tag := 0x2A, dest := 0x488D, src := 0x4B6A
      rport := 141, bcnt := 64, addr := 0x01800000E040 }) =
    0x6817F040_0201002A_0000488D_00004B6A_00000002_34080000_01800000_E0404C51 := by decide +kernel
/-- At the ejecting stop `HOPS` is 14 and `MARK` 1, and the check still holds. -/
theorem test_header_marked : Header.checks { exampleLoad with hops := 14, mark := 1 } = true ∧
    Header.checks { exampleLoad with echo := 1 } = false := by decide +kernel

/-- A record in the DATA area (03 R74): its 64 bytes, the highest bits last. -/
theorem test_fault_area : (faultArea (mkFault 3 0x36A 0x2A 6 false 0x115 0)).drop 52 =
    [0x15, 0x01, 0, 0, 0, 0, 0, 0, 0x06, 0x2A, 0x6A, 0x33] := by decide +kernel

/-- The lengths of 03 R75. -/
theorem test_data_lengths : dataLen 0x40 64 = 1 ∧ dataLen 0x60 64 = 3 ∧ dataLen 0 200 = 3 ∧ dataLen 0 4096 = 33 ∧
    dataLen 0x10 4096 = 34 := by decide +kernel

/-- Aligning D3 of T4 (chapter 02). -/
theorem test_thetas : [theta 4096 4115 4131 4152, theta 4200 4223 4239 4262, theta 4300 4321 4337 4360,
    theta 4400 4422 4438 4461] = [-1, 0, -1, 0] ∧ thetaSkew [-1, 0, -1, 0] false = -1 := by decide
theorem test_skew_register : SkewReg.word { valid := true, seq := 1, attempts := 1, skew := 0xF, rtt := 46 } = 0x811F002E := by
  decide +kernel

/-- The ops of chapters 07, 15, 17 and 20. -/
def opRead (o : Op) : Status × List Nat × Bool := (decodeOp .t4 .fip o, [opcOf o, opChan o, opCnt o, opCinc o], opCrst o)
theorem test_tile_ops :
    opRead 0x04C00000000000000000000000001000 = (.ok, [ocLdd, 3, 0, 0], false) ∧
    opRead 0x08E07010001000005000000000000000 = (.ok, [ocMove, 3, 7, 1], true) ∧
    opRead 0x24C00000000000000000000000000000 = (.ok, [ocFence, 3, 0, 0], false) ∧
    opRead 0x1CC00000000126B00900000000000001 = (.ok, [ocSignal, 3, 0, 0], false) := by decide +kernel
theorem test_signal_fields : let o : Op := 0x1CC00000000126B00900000000000001
    o.extractLsb' 66 28 = 0x49AC ∧ fld o 63 56 = 9 ∧ fld o 47 0 = 1 ∧ fld o 95 94 = 0 := by decide +kernel
theorem test_program_ops : decodeOp .t4 .prog 0x20000000_0C800040_00000000_00000800 = .ok ∧
    opcOf (0x20000000_0C800040_00000000_00000800 : Op) = ocWait ∧ fld (0x20000000_0C800040_00000000_00000800 : Op) 95 88 = 12 ∧
    fld (0x20000000_0C800040_00000000_00000800 : Op) 47 0 = 2048 := by decide +kernel
theorem test_turn_op : let o : Op := 0x88001010000000000000000000001F42
    decodeOp .t4 .fmu o = .ok ∧ opcOf o = ocTurn ∧ opCnt o = 1 ∧ opCinc o = 1 ∧ fld o 39 0 = 8002 := by decide +kernel
theorem test_spare_op : let o : Op := 0x98000000005400000000000000002BD1
    decodeOp .t4 .fmu o = .ok ∧ opcOf o = ocSpare ∧ fld o 95 92 = 0 ∧ fld o 91 82 = 21 ∧ fld o 31 0 = 1 + 701 * 16 := by
  decide +kernel
theorem test_stage_op : let o : Op := 0x8000000004540000800000F700001020
    decodeOp .t4 .fmu o = .ok ∧ opcOf o = ocStage ∧ stScope o = 0 ∧ stKind o = 1 ∧ stUnit o = 84 ∧
    stTable (stOffset o) = some (0, 247) ∧ stData o = 0x1020 := by decide +kernel
/-- A management op is refused on the Fabric Issue Port, and a set reserved bit is `MALFORMED`. -/
theorem test_decode_refuses : decodeOp .t4 .fip 0x88001010000000000000000000001F42 ≠ .ok ∧
    decodeOp .t4 .fip 0x24C00000000000000000000000000001 = .malformed := by decide +kernel

/-- The NQB12 block of chapter 11, from binary32 3.0, -0.7, 0.001 and 1.5. -/
theorem test_nqb12_block : (encodeUnit 15 0 false (decodeUnits 1 32 (toBytesLE 0x40400000 4 ++ toBytesLE 0xBF333333 4 ++
      toBytesLE 0x3A83126F 4 ++ toBytesLE 0x3FC00000 4 ++ List.replicate 112 0))).take 8 =
    [0x80, 0x00, 0xA6, 0xE9, 0x01, 0x00, 0x30, 0x00] := by decide +kernel
/-- The MXFP8 block of chapter 11, from binary32 1000.0 and 0.3. -/
theorem test_mxfp8_block : (encodeUnit 6 0 false (decodeUnits 1 32 (toBytesLE 0x447A0000 4 ++ toBytesLE 0x3E99999A 4 ++
      List.replicate 120 0))).take 3 = [0x80, 0x7E, 0x22] := by decide +kernel

/-- The bfloat16 sum of chapter 10. -/
theorem test_bf16_sum : [0x411C, 0x3AB3, 0xC11C].map (fun n => quantise 3 0 32 130 (FloatFmt.decode ⟨8, 7, 127, true, false⟩ n)) =
      [39936, 6, -39936] ∧ partialBytes 32 [-39936] = toBytesLE 0xFFFF6400 4 ∧
    redMerge 32 (redMerge 32 39936 6) (-39936) = 6 ∧ redResult 3 3 0 32 130 6 = (0x3AC0, false) := by decide +kernel
/-- The widths of chapter 10's examples. -/
theorem test_widths : redM 3 + redG 3 0 + redH 512 + 1 = 26 ∧ redWide 3 0 512 1 = true ∧ redChunk 0 3 1 = 1024 ∧
    redH 2048 = 11 ∧ redM 1 + redG 1 0 + redH 2048 + 1 = 52 ∧ redWide 1 0 2048 1 = false ∧ redWide 1 0 2048 2 = true ∧
    redChunk 0 1 2 = 512 := by decide +kernel

/-- The log entry of chapter 16: words 0 and 2. -/
theorem test_log_words : 
    (LogEntry.words {
      rec_ := { mkFault 3 874 FaultKind.mcProtocol.code FaultKind.mcProtocol.cls false 0x115 0 with sev := 1 }
      tabSev := 1, esc := false, owner := none, seq := 0 }).take 3 =
      [0x336A2A06, 0x24000000, 0x115] := by decide +kernel

/-- `STP_PORT` of chapter 12's example: isolating, then off. -/
theorem test_port_words : StopPort.word { pwr := .isolating } = 0x10000000 ∧
    StopPort.word { pwr := .off } = 0xA0000000 := by decide +kernel

/-- The window halving of chapter 05: `WMAX` 1,024, `WMIN` 33, `HOLD` 0x10; fifteen further answers unmarked. -/
theorem test_window : let ctl : Word := 0x40008410
    (List.range 16).foldl (fun (w : WinState) i => w.answered 3 34 (if i = 0 then 2 else 0) ctl (1000 + i) 1)
      { win := [(3, 1024)], infl := [(3, 1020)] } =
      { win := [(3, 527)], infl := [(3, 476)], halves := [(3, 1)], holdUntil := [(3, 1128)] } := by decide +kernel
/-- The wire of chapter 17, and one of a bridge. -/
theorem test_wire : mapWires false [701] [] = ([(0, 701)], false) ∧ spareWire false 0 701 = 1129 ∧
    mapWires true [281] [(0, 5)] = ([(0, 5), (1, 281)], false) := by decide +kernel

/-- The tenant shaper of chapter 06: the colour of each write, and the buckets after it; the NI offers
a 4 KiB write at each of the times listed, and a refill comes before the eighth and the eleventh. -/
def shaperNi : Ni := { cfg := { tabs := [(2 * 2 ^ 24 + 36, 0x80210000), (2 * 2 ^ 24 + 37, 0x01400280), (2 * 2 ^ 24 + 38, 0x00100020)] }
                       inj := { tc := [(9, 16384)], tp := [(9, 32768)] } }
def shaperWrite : Header := { cls := 2, kind := 1, domain := 9, len := 33, bcnt := 4096 }
def shaperStep (x : Fabric × List (Nat × Nat × Nat)) (refill : Bool) : Fabric × List (Nat × Nat × Nat) :=
  let f := if refill then x.1.refill 0 else x.1
  let c := f.preview 0 shaperWrite
  let g := f.chargeMeter 0 shaperWrite c
  (g, x.2 ++ [(c, (g.ni 0).inj.tc.get 9 0, (g.ni 0).inj.tp.get 9 0)])
theorem test_shaper : ([false, false, false, false, false, false, false, false, true, false, false, false, true, false,
      false].foldl shaperStep ({ nis := [(0, shaperNi)] }, [])).2 =
    [(0, 12256, 28640), (0, 8128, 24512), (0, 4000, 20384), (1, 4000, 16256), (1, 4000, 12128), (1, 4000, 8000),
     (1, 4000, 3872), (2, 4000, 3872), (0, 4992, 9984), (0, 864, 5856), (1, 864, 1728), (2, 864, 1728),
     (0, 1856, 7840), (1, 1856, 3712), (2, 1856, 3712)] := by decide +kernel

/-! ## Witnesses: states that meet the hypotheses of the statements -/

/-- A fabric in full service. -/
def fabOpen : Fabric := {
  boot := { latch := 9, done := true, crawl := false, ms := [(5, 1)] }
  time := { aligned := true }
  fmu := { prog := { open_ := true }, cfg := { regs := [(0x80C, 0x80000000)] } } }
/-- With one NI, with one stop, or with an FMU of a given state. -/
def withNi (p : Nat) (n : Ni) : Fabric := { fabOpen with nis := [(p, n)] }
def withStop (s : Nat) (x : Stop) : Fabric := { fabOpen with stops := [(s, x)] }
/-- Channel 15 of the Core NI at port 1,021 holds one op; the FMU's stream holds one op. -/
def chanHolds (e : QEntry) : Fabric := withNi 1021 { tsq := { chans := [(15, { queue := [e] })] } }
def fifoHolds (o : Op) : Fabric := { fabOpen with fmu := { fabOpen.fmu with prog := { fifo := [o], open_ := true } } }
def opEntry (oc low : Nat) : QEntry := { eid := 0, op := ownOp oc low }
def opStarted (oc low : Nat) : QEntry := { opEntry oc low with started := true }

theorem witness_step : (({ pending := [.stage, .check] } : State).pending = .stage :: [.check]) ∧
    State.reset.pending = [] ∧ State.reset.fab.boot.inReset = false ∧
    ({ fab := { boot := { inReset := true } } } : State).fab.boot.inReset = true := by decide
theorem witness_start_of_an_op : (chanHolds (opEntry ocMove 0)).entry (.tsq 1021 15) 0 = some (opEntry ocMove 0) := by
  decide +kernel
theorem witness_channel_ops : ∀ oc ∈ [ocNop, ocFence, ocLdd, ocMove, ocMovex, ocMcast, ocReduce, ocStamp, ocWait, ocTree, ocProbe],
    startable (chanHolds (opEntry oc 0)) 1021 15 (opEntry oc 0) ∧ opcOf (opEntry oc 0).op = oc ∧
    (chanHolds (opEntry oc 0)).running (.tsq 1021 15) ocWait = none := by
  simp only [startable]; decide +kernel
theorem witness_channel_ldd_program : startable (chanHolds (opEntry ocLdd (2 ^ 88))) 1021 15 (opEntry ocLdd (2 ^ 88)) ∧
    opcOf (opEntry ocLdd (2 ^ 88)).op = ocLdd ∧ fld (opEntry ocLdd (2 ^ 88)).op 89 88 = 1 := by
  simp only [startable]; decide +kernel
theorem witness_tree_ops : ∀ k ∈ [0, 1, 2], startable (chanHolds (opEntry ocTree (k * 2 ^ 94))) 1021 15 (opEntry ocTree (k * 2 ^ 94)) ∧
    opcOf (opEntry ocTree (k * 2 ^ 94)).op = ocTree ∧ fld (opEntry ocTree (k * 2 ^ 94)).op 95 94 = k := by
  simp only [startable]; decide +kernel
theorem witness_signal : ∀ k ∈ [0, 3], startable (chanHolds (opEntry ocSignal (k * 2 ^ 94))) 1021 15 (opEntry ocSignal (k * 2 ^ 94)) ∧
    opcOf (opEntry ocSignal (k * 2 ^ 94)).op = ocSignal ∧ fld (opEntry ocSignal (k * 2 ^ 94)).op 95 94 = k ∧
    ((chanHolds (opEntry ocSignal (k * 2 ^ 94))).chan (.tsq 1021 15)).queue = [opEntry ocSignal (k * 2 ^ 94)] := by
  simp only [startable]; decide +kernel
/-- A WAIT for 1 on a counter at 0, and one for 0. -/
theorem witness_wait : ∀ v ∈ [0, 1], let e := opStarted ocWait v
    let f := chanHolds e
    f.seqLive (.tsq 1021 15) = true ∧ f.running (.tsq 1021 15) ocWait = some e ∧ e.aborted = false ∧
    (f.chan (.tsq 1021 15)).queue = [e] ∧ (f.chan (.tsq 1021 15)).aborts = [] ∧
    (f.compared (.tsq 1021 15) (fld e.op 95 88)).toNat = 0 ∧ fld e.op 47 0 = v := by decide +kernel
theorem witness_probe_written : let r : Run := { addr := 0, local_ := 64, bytes := 1, data := [7] }
    let e : QEntry := { opStarted ocProbe 0 with work := { runs := [r] } }
    let f := chanHolds e
    f.seqLive (.tsq 1021 15) = true ∧ f.running (.tsq 1021 15) ocProbe = some e ∧
    (f.chan (.tsq 1021 15)).queue = [e] ∧ e.aborted = false ∧ (f.chan (.tsq 1021 15)).aborts = [] ∧ e.work.runs = [r] := by
  decide +kernel
/-- A NOP is accepted and decodes; a reserved bit is rejected; a full channel is not ready. -/
theorem witness_fip : let f := withNi 1021 {}
    let full := withNi 1021 { tsq := { chans := [(15, { queue := List.replicate 64 (opEntry ocFence 0) })] } }
    let o : Op := ownOp ocNop (15 * 2 ^ 118)
    f.seqLive (.tsq 1021 0) = true ∧ opcOf o ≠ ocAbort ∧ opChan o = 15 ∧ f.fipReady 1021 15 = true ∧
    decodeOp f.variant .fip o = .ok ∧ decodeOp f.variant .fip (o ||| 1) ≠ .ok ∧ opcOf (o ||| 1) ≠ ocAbort ∧
    full.seqLive (.tsq 1021 0) = true ∧ full.fipReady 1021 15 = false := by decide +kernel
theorem witness_program_fetch : let f := withNi 1021 { tsq := { chans := [(15, { prog := some (0x8000, 1) })] } }
    f.seqLive (.tsq 1021 15) = true ∧ (f.chan (.tsq 1021 15)).prog = some (0x8000, 0 + 1) ∧
    (f.chan (.tsq 1021 15)).queue.length < 64 ∧ decodeOp f.variant .prog (ownOp ocNop (15 * 2 ^ 118)) = .ok ∧
    decodeOp f.variant .prog (ownOp ocStage 0) ≠ .ok := by decide +kernel
/-- A descriptor of one row of one 8-byte integer. -/
def oneRow : BitVec 512 := BitVec.ofNat 512 (0x1000 + (14 * 2 ^ 60 + 2 ^ 58) * 2 ^ 64 + (1 + 2 ^ 32) * 2 ^ 128 +
  (1 + 2 ^ 32) * 2 ^ 192 + (1 * 2 ^ 48 + 8) * 2 ^ 256 + (2 ^ 48 + 8) * 2 ^ 320 + (2 ^ 48 + 8) * 2 ^ 384 + 2 ^ 448)
theorem witness_ldd_slot : let e := opStarted ocLdd (63 * 2 ^ 90)
    (chanHolds e).seqLive (.tsq 1021 15) = true ∧ (chanHolds e).running (.tsq 1021 15) ocLdd = some e ∧
    ((chanHolds e).chan (.tsq 1021 15)).queue = [e] ∧ e.aborted = false ∧ ((chanHolds e).chan (.tsq 1021 15)).aborts = [] ∧
    descOk oneRow = true ∧ descOk 0 = false := by decide +kernel
/-- A WAIT with `TMO` = 1, and an ABORT of an empty channel. -/
theorem witness_wait_timeout : let e := opStarted ocWait (1 + 2 ^ 64)
    let f := chanHolds e
    f.seqLive (.tsq 1021 15) = true ∧ f.running (.tsq 1021 15) ocWait = some e ∧ e.aborted = false ∧ fld e.op 79 64 ≠ 0 ∧
    f.due (e.work.startAt + fld e.op 79 64 * 1024 * f.unit) = true := by decide +kernel
theorem witness_late_abort : let o : Op := ownOp ocAbort (15 * 2 ^ 92)
    let f := withNi 1021 { tsq := { pendingAborts := [o] } }
    f.seqLive (.tsq 1021 0) = true ∧ (f.ni 1021).tsq.pendingAborts = o :: [] ∧
    (f.chan (.tsq 1021 (fld o 95 92))).queue = [] := by decide +kernel
/-- A status whose giver is channel 3, and one without a giver of this fc. -/
theorem witness_counter : ({ status := .timeout, nbad := 4095 } : Counter).status ≠ .ok ∧ ({} : Counter).status = .ok ∧
    Status.timeout ≠ .ok ∧ ({} : Counter).late = [] ∧ ({ status := .timeout, giver := some 3 } : Counter).giver = some 3 ∧
    (1 : Nat) ≠ ({} : Counter).at_ := by decide
theorem witness_local_copy : tileRows oneRow 0 = [0x1000] ∧ [1, 2, 3, 4, 5, 6, 7, (8 : Byte)].length = rowBytes oneRow 0 := by
  decide +kernel
/-- A local copy with one line left, or two. -/
theorem witness_copying : ∀ rs ∈ [[], [({ addr := 0, local_ := 128, bytes := 1, data := [8] } : Run)]],
    let d : BitVec 512 := BitVec.ofNat 512 (2 ^ 122)
    let r : Run := { addr := 0, local_ := 64, bytes := 1, data := [7] }
    let e : QEntry := { opStarted ocMove 0 with issued := true, work := { src := d, dst := d, runs := r :: rs, outstanding := 1 } }
    let f := chanHolds e
    (f.chan (.tsq 1021 15)).queue = [e] ∧ (f.chan (.tsq 1021 15)).aborts = [] ∧ e.copying = true ∧ e.work.runs = r :: rs := by
  decide +kernel

/-! The FMU's stream -/

theorem witness_stream_ops : ∀ oc ∈ [ocNop, ocFence, ocWait, ocStage, ocCheck, ocTurn, ocSnap],
    fmuStartable (fifoHolds (ownOp oc 0)) (opEntry oc 0) ∧ opcOf (opEntry oc 0).op = oc ∧
    (fifoHolds (ownOp oc 0)).running .fmu ocWait = none ∧ (fifoHolds (ownOp oc 0)).moving = true ∧
    (fifoHolds (ownOp oc 0)).fmu.chan.queue = [] ∧ (fifoHolds (ownOp oc 0)).stagesOpen < 64 := by
  simp only [fmuStartable]; decide +kernel
theorem witness_stream_signal : ∀ k ∈ [0, 3], fmuStartable (fifoHolds (ownOp ocSignal (k * 2 ^ 94))) (opEntry ocSignal (k * 2 ^ 94)) ∧
    fld (opEntry ocSignal (k * 2 ^ 94)).op 95 94 = k := by simp only [fmuStartable]; decide +kernel

/-- The FMU's stream with a turn in a given state, in milestone 100. -/
def fmuAt (o : Op) (t : Turn) : Fabric := {
  fabOpen with
  time := { aligned := true, fcc := 104857600, booked := 100 }
  fmu := { fabOpen.fmu with turn := t, prog := { fifo := [o], open_ := true } } }
/-- A STAGE of `TSQ_CH_CFG_5` at NI 84 is accepted, and one of a register that no unit has is refused. -/
theorem witness_stage : let a := ownOp ocStage (2 ^ 90 + 84 * 2 ^ 80 + 0x450 * 2 ^ 32 + 12)
    let b := ownOp ocStage (2 ^ 90 + 84 * 2 ^ 80 + 0x4 * 2 ^ 32)
    fmuStartable (fmuAt a {}) { eid := 0, op := a } ∧ (fmuAt a {}).stagesOpen < 64 ∧
    ((fmuAt a {}).fmuSkip.begin .fmu { eid := 0, op := a }).stageReason a = none ∧
    ((fmuAt b {}).fmuSkip.begin .fmu { eid := 0, op := b }).stageReason b = some 0x08 := by
  simp only [fmuStartable]; decide +kernel
/-- M from two milestones ahead to 65,536 ahead is accepted after a passing CHECK; the nearest and the
farthest M outside are refused, and so is a TURN without a CHECK. -/
theorem witness_turn : ∀ x ∈ [(102, none), (65636, none), (101, some 4), (65637, some 5)],
    let o := ownOp ocTurn x.1
    let f := fmuAt o { checked := true }
    fmuStartable f { eid := 0, op := o } ∧ f.fmu.chan.queue = [] ∧
    (f.fmuSkip.begin .fmu { eid := 0, op := o }).turnReason (fld o 39 0) = x.2 := by
  simp only [fmuStartable]; decide +kernel
theorem witness_turn_unchecked : let o := ownOp ocTurn 102
    ((fmuAt o {}).fmuSkip.begin .fmu { eid := 0, op := o }).turnReason (fld o 39 0) = some 1 := by decide +kernel
/-- A CHECK that finds nothing. -/
theorem witness_check : let o := ownOp ocCheck 0
    let f : Fabric := { fmuAt o {} with variant := .t1 }
    fmuStartable f { eid := 0, op := o } ∧ opcOf o = ocCheck ∧
    (f.fmuSkip.begin .fmu { eid := 0, op := o }).stageRepairs.violations = [] := by simp only [fmuStartable]; decide +kernel
/-- DRAIN of the epoch in force, of the other while a turn is sealed, of one not yet empty, of an empty one. -/
theorem witness_drain : ∀ x ∈ [(0, false, true), (1, true, true), (1, false, false), (1, false, true)],
    let o := ownOp ocDrain (x.1 * 2 ^ 95 + 173 * 2 ^ 64)
    let f0 := fmuAt o { sealed_ := x.2.1 }
    let f : Fabric := { f0 with fmu := { f0.fmu with drain := { confirmed1 := x.2.2 } } }
    fmuStartable f { eid := 0, op := o } ∧ f.moving = true ∧
    let g := f.fmuSkip.begin .fmu { eid := 0, op := o }
    (BitVec.ofNat 1 (fld o 95 95) = BitVec.ofNat 1 x.1 ∧ g.epoch = 0 ∧ g.fmu.turn.sealed_ = x.2.1 ∧ g.drained 1 = x.2.2) := by
  simp only [fmuStartable]; decide +kernel
/-- The four forms, of port 1,021 and of domain 63. -/
theorem witness_fencep : ∀ x ∈ [(1, 0), (0, 0), (1, 1), (0, 1)], let o := ownOp ocFencep (x.1 * 2 ^ 94 + x.2 * 2 ^ 93 + 1021 * 2 ^ 80 + 63 * 2 ^ 74)
    fmuStartable (fmuAt o {}) { eid := 0, op := o } ∧ opcOf o = ocFencep ∧ fld o 95 94 = x.1 ∧ b2n (bit o 93) = x.2 ∧
    ((fmuAt o {}).fmuSkip.begin .fmu { eid := 0, op := o }).fenceable 1021 = true ∧
    ((fmuAt o {}).fmuSkip.begin .fmu { eid := 0, op := o }).fenceable 111 = false := by
  simp only [fmuStartable]; decide +kernel
/-- Every SPARE form and both POWER forms, with no turn sealed and with one sealed. -/
theorem witness_spare : ∀ s ∈ [true, false], ∀ x ∈ [(0, 0), (1, 0), (2, 0), (3, 0), (4, 1), (4, 0), (5, 0), (6, 0)],
    let o := ownOp ocSpare (x.1 * 2 ^ 92 + x.2)
    fmuStartable (fmuAt o { sealed_ := s }) { eid := 0, op := o } ∧ opcOf o = ocSpare ∧ fld o 95 92 = x.1 ∧
    b2n (bit o 0) = x.2 ∧ ((fmuAt o { sealed_ := s }).fmuSkip.begin .fmu { eid := 0, op := o }).fmu.turn.sealed_ = s := by
  simp only [fmuStartable]; decide +kernel
theorem witness_power : ∀ s ∈ [true, false], ∀ b ∈ [0, 1], let o := ownOp ocPower (b * 2 ^ 95 + 1021 * 2 ^ 80)
    let f := fmuAt o { sealed_ := s }
    fmuStartable f { eid := 0, op := o } ∧ opcOf o = ocPower ∧ b2n (bit o 95) = b ∧ f.moving = true ∧
    (f.fmuSkip.begin .fmu { eid := 0, op := o }).kind (fld o 89 80) ≠ 0 := by simp only [fmuStartable]; decide +kernel
/-- The earliest and latest instants accepted, and the nearest refused; with a HALT stop pending before
and after the instant. -/
theorem witness_snap : ∀ b ∈ [0, 1], ∀ x ∈ [(104857600 + 65536, none), (65637 * 1048576 - 1, none),
      (104857600 + 65535, some 4), (65637 * 1048576, some 5)],
    let o := ownOp ocSnap (b * 2 ^ 95 + x.1)
    fmuStartable (fmuAt o {}) { eid := 0, op := o } ∧ opcOf o = ocSnap ∧ b2n (bit o 95) = b ∧
    ((fmuAt o {}).fmuSkip.begin .fmu { eid := 0, op := o }).snapReason o = x.2 := by
  simp only [fmuStartable]; decide +kernel
theorem witness_snap_and_halt : ∀ a ∈ [0, 1048576], let o := ownOp ocSnap (2 ^ 95 + 104857600 + 65536)
    let f0 := fmuAt o {}
    let f : Fabric := { f0 with fmu := { f0.fmu with stop := { stopAt := some (104857600 + a, true) } } }
    fmuStartable f { eid := 0, op := o } ∧ (f.fmuSkip.begin .fmu { eid := 0, op := o }).snapReason o = none ∧
    (f.fmuSkip.begin .fmu { eid := 0, op := o }).fmu.stop.stopAt = some (104857600 + a, true) := by
  simp only [fmuStartable]; decide +kernel

/-! The service road and turns -/

/-- Orders: one that a unit performs, a STAGE's answer, a fence's completion and a board order. -/
theorem witness_orders : let f : Fabric := { fabOpen with fmu := { fabOpen.fmu with
      road := { orders := [(.stop 255, .gather 3), (.ni 1021, .fencePort 1021 true)]
                answers := [(.ni 84, .stage 0 0x450 12 (ownOp ocStage 0))] }
      chan := { queue := [opStarted ocStage 0] } } }
    f.moving = true ∧ takeFirst (fun x => x.1 == .ni 1021 && x.2.direct) f.fmu.road.orders =
      some ((.ni 1021, .fencePort 1021 true), [(.stop 255, .gather 3)]) ∧
    (∀ x ∈ f.fmu.road.answers, ¬ (x.1 = .ni 1021 ∧ x.2.direct = true)) ∧ (UnitId.ni 1021) = .ni 1021 ∧
    takeFirst (fun x => x.1 == .ni 84 && x.2.direct) f.fmu.road.answers =
      some ((.ni 84, .stage 0 0x450 12 (ownOp ocStage 0)), []) ∧ f.fmu.chan.queue = [opStarted ocStage 0] ∧
    (opStarted ocStage 0).aborted = false ∧ f.fmu.chan.aborts = [] ∧
    f.fmu.road.orders = (.stop 255, .gather 3) :: [(.ni 1021, .fencePort 1021 true)] := by decide +kernel
theorem witness_fencep_complete : let f : Fabric := { fabOpen with fmu := { fabOpen.fmu with chan := { queue := [opStarted ocFencep 0] } } }
    f.moving = true ∧ f.fenceOpen = false ∧ f.running .fmu ocFencep = some (opStarted ocFencep 0) ∧
    f.fmu.chan.queue = [opStarted ocFencep 0] ∧ f.fmu.chan.aborts = [] := by decide +kernel
theorem witness_board_answers : let f : Fabric := { fabOpen with fmu := { fabOpen.fmu with
      road := { answers := [(.stop 255, .gather 3)] }, boards := { gathering := some 3 } } }
    f.moving = true ∧ f.fmu.road.answers = (.stop 255, .gather 3) :: [] ∧ f.fmu.boards.gathering = some 3 ∧
    254 < nStops f.variant ∧ NMap.find? (f.fmu.boards.gathered.put 255 (f.stopU 255).obs.captured) 254 = none := by
  decide +kernel
/-- A sealed turn in milestone M - 1, before its deadline, quiescing or not; stop 0 has no bridge to measure. -/
def turnFab (t : Turn) : Fabric := {
  fabOpen with
  variant := .t1
  time := { aligned := true, fcc := 104857600, booked := 100 }
  fmu := { fabOpen.fmu with turn := { t with sealed_ := true, m := 101 } } }
theorem witness_unit_arm : ∀ q ∈ [true, false], let f := turnFab { quiescing := q }
    f.moving = true ∧ f.fmu.turn.arming = true ∧ (UnitId.stop 9) ∈ f.unarmed ∧ f.time.fcc ≤ f.fmu.turn.armBy ∧
    f.quietUnit (.stop 0) = true ∧ f.measured (.stop 0) [] = true := by decide +kernel
theorem witness_unit_arm_ni : let f := turnFab {}
    let g : Fabric := { f with stops := [(63, { ports := [(1, { pwr := .waking })] })] }
    (UnitId.ni 253) ∈ f.unarmed ∧ (f.sport 253).pwr ≠ .waking ∧ (UnitId.ni 253) ∈ g.unarmed ∧ (g.sport 253).pwr = .waking := by
  decide +kernel
theorem witness_port_wake : let f0 := turnFab {}
    let f : Fabric := { f0 with stops := [(63, { ports := [(1, { pwr := .waking })] })], nis := [(253, { pwr := { waking := some 5 } })] }
    f.moving = true ∧ f.fmu.turn.arming = true ∧ (f.sport 253).pwr = .waking ∧ f.kind 253 ≠ 0 ∧
    (f.ni 253).pwr.waking.isSome = true ∧ f.time.fcc ≤ f.fmu.turn.armBy := by decide +kernel
theorem witness_deadlines : let f := turnFab {}
    let g := turnFab { disarming := true }
    f.moving = true ∧ f.fmu.turn.arming = true ∧ f.due f.fmu.turn.armBy = true ∧
    g.live = true ∧ g.fmu.turn.sealed_ = true ∧ g.fmu.turn.disarming = true ∧ (UnitId.ni 253) ∈ g.armUnits ∧
    (UnitId.ni 253) ∉ g.fmu.turn.disarmed ∧ g.fmu.turn.lost = false ∧ g.fmu.stop.stopped = false ∧
    g.due g.fmu.turn.disarmBy = true ∧ g.time.fcc ≤ g.fmu.turn.disarmBy ∧ g.undisarmed ≠ [] ∧
    (let h := g.reach g.fmu.turn.disarmBy
     (h.firstUnit h.undisarmed).isSome = true) ∧ f.fmu.turn.ungated = [] ∧ (f.reach f.fmu.turn.armBy).allArmed = false := by
  decide +kernel
/-- Every unit has confirmed by the deadline. -/
theorem witness_all_armed : let f := turnFab { confirmed := (turnFab {}).armUnits }
    f.moving = true ∧ f.fmu.turn.arming = true ∧ f.due f.fmu.turn.armBy = true ∧ f.fmu.turn.ungated = [] ∧
    (f.reach f.fmu.turn.armBy).allArmed = true := by decide +kernel
/-- A cancel one fc before the deadline, and one at it. -/
theorem witness_cancel : let f := turnFab {}
    let g : Fabric := { f with time := { f.time with fcc := f.fmu.turn.armBy } }
    let h : Fabric := { f with time := { f.time with fcc := f.fmu.turn.armBy - 1 } }
    f.live = true ∧ h.fmu.turn.arming = true ∧ h.time.fcc < h.fmu.turn.armBy ∧ g.fmu.turn.armBy ≤ g.time.fcc := by decide +kernel
theorem witness_outcomes : let f := turnFab { swapped := true }
    let g := turnFab { fail := some (.timeout, 0), disarming := true }
    f.live = true ∧ f.fmu.turn.sealed_ = true ∧ f.fmu.turn.swapped = true ∧
    g.live = true ∧ g.fmu.turn.sealed_ = true ∧ g.fmu.turn.swapped = false ∧ g.fmu.turn.fail = some (.timeout, 0) ∧
    ({ g with fmu := { g.fmu with turn := { g.fmu.turn with disarmed := g.armUnits } } } : Fabric).undisarmed = [] := by
  decide +kernel
theorem witness_swap : let f0 := turnFab { deadlinePassed := true }
    let f : Fabric := { f0 with time := { f0.time with fcc := 105906175, booked := 101 } }
    f.moving = true ∧ f.fmu.turn.sealed_ = true ∧ f.fmu.turn.swapped = false ∧ f.dueAt f.fmu.turn.swapAt = true ∧
    f.fmu.turn.armed = true ∧ f.fmu.stop.stopAt = none ∧ f.fmu.stop.freezeAt = none := by decide +kernel
theorem witness_auto_repair : let f : Fabric := { fabOpen with fmu := { fabOpen.fmu with
      fault := { auto := true, repairs := [{ rkind := 0, unit := 21, spec := 0 }] } } }
    f.moving = true ∧ f.fmu.prog.open_ = true ∧ f.fmu.fault.auto = true ∧ f.fmu.fault.repairs ≠ [] ∧ f.fmu.prog.fifo = [] ∧
    f.fmu.chan.queue = [] ∧ f.fmu.turn.sealed_ = false ∧ f.fmu.turn.writable = true := by decide +kernel
theorem witness_drain_goes_on : ∀ n ∈ [0, 1], let f : Fabric := { fabOpen with fmu := { fabOpen.fmu with
      drain := { epoch := some 1, sampled := some n, left := 0 } } }
    f.moving = true ∧ f.fmu.drain.epoch = some 1 ∧ f.fmu.drain.sampled = some n ∧ f.fmu.drain.left = 0 := by decide +kernel
theorem witness_port_gate : let f := { withStop 63 { ports := [(1, { pwr := .isolating })] } with nis := [(253, { pwr := { drained := true } })] }
    f.moving = true ∧ f.kind 253 ≠ 0 ∧ (f.sport 253).pwr = .isolating ∧ (f.ni 253).quiet = true ∧
    (f.ni 253).pwr.drained = true ∧ f.comesBack 253 = false := by decide +kernel

/-! Scheduled instants, faults, time -/

theorem witness_instants : let f : Fabric := { fabOpen with fmu := { fabOpen.fmu with stop := { stopAt := some (65536, true) } } }
    let g : Fabric := { fabOpen with fmu := { fabOpen.fmu with stop := { freezeAt := some 65536 } } }
    f.live = true ∧ f.fmu.stop.stopAt = some (65536, true) ∧ f.dueAt 65536 = true ∧ f.fmu.stop.freezeAt = none ∧
    f.fmu.turn.sealed_ = false ∧ g.fmu.stop.freezeAt = some 65536 ∧ g.dueAt 65536 = true ∧ g.fmu.stop.stopAt = none := by
  decide +kernel
theorem witness_stopped : let f : Fabric := { fabOpen with fmu := { fabOpen.fmu with stop := { stopped := true, publish := true } } }
    f.live = true ∧ f.fmu.stop.publish = true ∧ f.fmu.stop.stopped = true ∧ f.fmu.stop.resumeAt = none ∧
    fabOpen.live = true ∧ fabOpen.fmu.stop.stopped = false := by decide +kernel
theorem witness_retrain : let f := withStop 255 { tx := [(3, { state := .withdrawn, retrain := true })] }
    f.moving = true ∧ 255 < nStops f.variant ∧ (f.stopU 255).spare.bypass = false ∧ (f.txOf 255 3).retrain = true ∧
    (f.repairWires (f.nbr 255 3) 3 (f.bridge 255 3) [281]).2 = false := by decide +kernel
/-- A fault waits with one packet of credit at an NI, a slice and a stop. -/
theorem witness_fault_send : let r := mkFault 3 1021 1 1 false 0 0
    let f := withNi 1021 { flt := { waiting := [r] } }
    f.moving = true ∧ f.fmu.prog.open_ = true ∧ f.mgtCredit (.ni 1021) = 65536 ∧ f.mgtPortFree 1021 = true ∧
    (f.fltOf (.ni 1021)).waiting = r :: [] ∧ (match f.resolve 1021 (faultPkt (f.node 1021) 1021 r).hdr with
      | .go rp _ dir => rp == fmuPort && dir != 3
      | _ => false) = true ∧ (f.faultNext 1021).isSome = true := by
  decide +kernel
theorem witness_fault_send_slice : let r := mkFault 1 3 5 1 false 0 0
    let f := fabOpen.updDie 3 fun x => { x with flt := { waiting := [r] } }
    f.moving = true ∧ f.fmu.prog.open_ = true ∧ f.mgtCredit (.slice 3) = 65536 ∧ f.mgtPortFree (slicePort 3) = true ∧
    (f.fltOf (.slice 3)).waiting = r :: [] := by decide +kernel
theorem witness_fault_send_stop : let r := mkFault 2 255 0x12 2 false 0 0
    let f := withStop 255 { flt := { waiting := [r] } }
    f.moving = true ∧ f.fmu.prog.open_ = true ∧ f.mgtCredit (.stop 255) = 65536 ∧
    (f.fltOf (.stop 255)).waiting = r :: [] := by decide +kernel
theorem witness_fault_evaluate : let r := mkFault 3 1021 1 1 false 0 0
    let f : Fabric := { fabOpen with fmu := { fabOpen.fmu with fault := { arrived := [r] }, pin := { pulseEnd := some 128 } } }
    f.live = true ∧ f.fmu.fault.arrived = r :: [] ∧ f.fmu.fault.log.length < 1024 ∧ f.fmu.pin.pulseEnd = some 128 ∧
    f.due 128 = true := by decide +kernel
/-- FORCE words of a kind the FMU raises, and of one a Core NI raises. -/
theorem witness_force : let w (k : FaultKind) : Word := BitVec.ofNat 32 (2 ^ 31 + k.code)
    fabOpen.kind 1021 = 1 ∧ fabOpen.powered 1021 = true ∧ bit (w .turnFail) 31 = true ∧
    kindOfCode (fld (w .turnFail) 7 0) = some .turnFail ∧ fmuKinds.contains .turnFail = true ∧
    kindOfCode (fld (w .rspTimeout) 7 0) = some .rspTimeout ∧ (niKinds (fabOpen.kind 1021)).contains .rspTimeout = true ∧
    fabOpen.fmu.stop.stopped = false ∧ fabOpen.fmu.prog.open_ = true := by decide +kernel
/-- A frame of milestone 1,000 with its check, and one whose check is wrong. -/
theorem witness_frames : let v : BitVec 48 := BitVec.ofNat 40 1000 ++ crc8 (BitVec.ofNat 40 1000)
    fabOpen.live = true ∧ crc8 (v.extractLsb' 8 40) = v.extractLsb' 0 8 ∧
    crc8 ((v ^^^ 1).extractLsb' 8 40) ≠ (v ^^^ 1).extractLsb' 0 8 := by decide +kernel
/-- The last phase inside the window and the first outside. -/
theorem witness_ticks : fabOpen.live = true ∧ fabOpen.time.aligned = true ∧
    ({ fabOpen with taux := { align := { phase := .done } } } : Fabric).taux.align.phase ≠ .waitTick ∧
    fabOpen.time.inPhase 4 = true ∧ fabOpen.time.inPhase (-4) = true ∧ fabOpen.time.inPhase 5 = false ∧
    fabOpen.time.inPhase (-5) = false := by decide +kernel
theorem witness_tree_marker : fabOpen.live = true ∧ fabOpen.time.aligned = true ∧ 3 < nDies fabOpen.variant ∧
    (∀ r ∈ fabOpen.fmu.spares, ¬ (r.1 = 6 ∧ r.2.1 = 3)) ∧
    ({ fabOpen with fmu := { fabOpen.fmu with spares := [(6, 3, 0, 1)] } } : Fabric).fmu.spares.find? (fun r => r.1 == 6 && r.2.1 == 3) =
      some (6, 3, 0, 1) := by decide +kernel
/-- Alignment: the first labelled tick, an echo of at most 4,096 fc, and exchanges whose fourth θ is 2 or 3
in magnitude, on the third attempt and before it. -/
def aligning (v : Variant) (a : Align) (frame : Option (BitVec 40)) : Fabric :=
  { variant := v, taux := { align := a, frame := frame } }
theorem witness_align : ∀ v ∈ [Variant.t1, Variant.t4], let f := aligning v {} (some 1000)
    f.live = true ∧ f.boot.fail = false ∧ f.boot.latch = 4 ∧ f.taux.align.phase = .waitTick ∧ f.taux.frame = some 1000 ∧
    (1 < nDies v ↔ v = .t4) := by decide +kernel
theorem witness_echo : ∀ b ∈ [true, false], let f := aligning .t4 { phase := .echo 3, treeB := b } none
    f.live = true ∧ f.taux.align.phase = .echo 3 ∧ f.taux.align.treeB = b ∧ f.boot.latch = 4 ∧ 4096 - 0 ≤ 4096 := by
  decide +kernel
theorem witness_exchange : ∀ n ∈ [1, 3], let f := aligning .t4 { phase := .exchange 3, attempts := n, thetas := [0, 0, 0] } none
    f.live = true ∧ f.taux.align.phase = .exchange 3 ∧ f.taux.align.attempts = n ∧
    (f.taux.align.thetas ++ [theta 0 4 0 0]).length = 4 ∧ thetaMax (f.taux.align.thetas ++ [theta 0 4 0 0]) = 2 ∧
    thetaMax (f.taux.align.thetas ++ [theta 0 6 0 0]) = 3 := by decide +kernel
theorem witness_exchange_goes_on : let f := aligning .t4 { phase := .exchange 3, thetas := [0, 0] } none
    f.live = true ∧ f.taux.align.phase = .exchange 3 ∧ (f.taux.align.thetas ++ [theta 0 0 0 0]).length < 4 := by decide +kernel
theorem witness_realign : let f : Fabric := { fabOpen with fmu := { fabOpen.fmu with stop := { stopped := true } } }
    f.live = true ∧ f.fmu.turn.sealed_ = false ∧ f.fmu.stop.stopped = true ∧ (turnFab {}).fmu.turn.sealed_ = true := by
  decide +kernel

/-! Reset and bring-up -/

def resetFab (b : Boot) (locked : Bool) : Fabric := {
  boot := { b with inReset := true }
  dies := [(3, { pllLocked := locked })] }
theorem witness_pg : 3 < nDies State.reset.fab.variant := by decide
/-- Reset that can be released; with a rail down, a PLL unlocked, or the latch at 0xF. -/
theorem witness_release : let a := resetFab { latch := 3 } true
    a.boot.inReset = true ∧ a.railsGood = true ∧ a.pllsLocked = true ∧ a.boot.latch ≠ 15 ∧
    (resetFab { pg := 7 } true).railsGood = false ∧ (resetFab {} false).pllsLocked = false ∧
    (resetFab { latch := 15 } true).boot.latch = 15 := by decide +kernel
theorem witness_pll : let f := resetFab { latch := 2, rstN := false } false
    3 < nDies f.variant ∧ f.boot.inReset = true ∧ f.railsGood = true ∧ (f.die 3).pllLocked = false ∧ f.boot.latch = 2 ∧
    f.boot.rstN = false ∧ fabOpen.boot.inReset = false := by decide +kernel
/-- A link in training: its pattern period, and its idle period in the first, second and third attempt,
good or with a wire that found no spare. -/
def trainFab (w : LinkWear) : Fabric :=
  { boot := { latch := 5 }, time := { aligned := true }, stops := [(({} : Fabric).nbr 255 3, { wear := [(3, w)] })] }
theorem witness_training : ∀ w ∈ [({} : LinkWear), { phase := 1 }, { phase := 1, unmapped := true, attempt := 1 },
      { phase := 1, unmapped := true, attempt := 2 }], let f := trainFab w
    f.live = true ∧ f.time.aligned = true ∧ f.boot.latch = 5 ∧ f.boot.fail = false ∧ 255 < nStops f.variant ∧
    (f.txOf 255 3).state = .training ∧ (f.stopU (f.nbr 255 3)).wear.get 3 {} = w := by decide +kernel
/-- The program FIFO: full, one op short of full with three words, and with two. -/
theorem witness_program : (List.replicate 256 (0 : Op)).length = 256 ∧ (List.replicate 255 (0 : Op)).length < 256 ∧
    ({ part := [1, 2, 3] } : Prog).part = [1, 2, 3] ∧ ({ part := [1, 2] } : Prog).part.length < 3 := by decide +kernel

/-! The management bus -/

theorem witness_bus_in_reset : let f := resetFab {} true
    f.boot.inReset = true ∧ mappedUnit (.ni 1023) = true ∧ f.isLo 0x10020 = true ∧ isRecord 0x2000 = true := by decide +kernel
/-- Addresses: misaligned; just past the FMU's slices and just before the NI blocks; an absent stop's;
the last NI register; the last stop register. -/
theorem witness_bus_rules : fabOpen.live = true ∧ 0x1002 % 4 ≠ 0 ∧ blockOf 0x50000 = none ∧ blockOf 0x3FFFFC = none ∧
    blockOf 0x1400000 = none ∧ 0x2C % 4 = 0 ∧ blockOf 0x13FFFFC = some (.ni 1023, 0x3FFC) ∧ blockOf 0x1FFFFC = some (.stop 255, 0xFFC) ∧
    ({ fabOpen with variant := .t1 } : Fabric).present (.stop 64) = false ∧ fabOpen.present (.stop 255) = true := by
  decide +kernel
theorem witness_captures : fabOpen.kind 1021 = 1 ∧ fabOpen.powered 1021 = true ∧ 1021 < nPorts fabOpen.variant ∧
    3 < nDies fabOpen.variant ∧ fabOpen.frz = none ∧
    (fabOpen.ni 1021).wideCtr fabOpen.time.cycles (fabOpen.kind 1021) 0x1000 = some 0 := by decide +kernel
theorem witness_board_ack : let f : Fabric := { fabOpen with fmu := { fabOpen.fmu with boards := { filling := some (7, []) } } }
    f.live = true ∧ f.fmu.boards.filling = some (7, []) ∧ fabOpen.fmu.boards.filling = none := by decide +kernel
theorem witness_log_ack : let e : LogEntry := {
      rec_ := mkFault 3 874 1 1 false 0 0, tabSev := 1, esc := false, owner := none, seq := 5, gen := some 2 }
    let f : Fabric := { fabOpen with fmu := { fabOpen.fmu with fault := { log := [e] } } }
    f.live = true ∧ f.fmu.fault.log = e :: [] ∧ e.gen = some 2 ∧ fabOpen.fmu.fault.log = [] ∧ 3 < nDies f.variant := by
  decide +kernel

/-! Published results and samples -/

theorem witness_publish : let r : DigRun := { cause := 0, fcc := 0, tseq := 1, epoch := 1, msg := [] }
    let f : Fabric := { fabOpen with fmu := { fabOpen.fmu with dig := { running := some r, ndetCaps := [(true, 5, 1, 2)] } } }
    f.live = true ∧ f.moving = true ∧ f.fmu.dig.running = some r ∧ f.fmu.dig.ndetCaps = (true, 5, 1, 2) :: [] := by
  decide +kernel
theorem witness_samples : fabOpen.moving = true ∧ fabOpen.due fabOpen.sampleAt = true ∧
    (let d := fabOpen.niReg (slicePort (dieOfPort 1021)) 0x1310
     let n := samplePeriod d
     let ph := samplePhase 1021 15 d
     let t := fabOpen.time.fcc
     fabOpen.due (fabOpen.slotOf (if t % n ≤ ph then t / n * n + ph else (t / n + 1) * n + ph)) = true) ∧
    fabOpen.due ((fabOpen.time.fcc + 256) / 512 * 512 + 256) = true ∧ 1021 < nPorts fabOpen.variant ∧
    fabOpen.kind 1021 ≠ 0 ∧ (fabOpen.ni 1021).inj.meterOld = none := by decide +kernel
/-- A channel in use with its samples switched on. -/
theorem witness_op_sample : let f0 := chanHolds (opStarted ocFence 0)
    let f : Fabric := { f0 with nis := f0.nis ++ [] }
    let g := f.updNi (slicePort 3) fun n => { n with cfg := { n.cfg with regs := [(0x1310, 0xA0000000)] } }
    hasTrace g.variant = true ∧ bit (g.niReg (slicePort (dieOfPort 1021)) 0x1310) 29 = true ∧ g.kind 1021 = 1 ∧
    g.powered 1021 = true ∧ Chan.stateCode (g.chan (.tsq 1021 15)) ≠ 0 ∧ (g.ni 1021).obs.traceQ.length < 4 := by decide +kernel
/-- A read pointer at the largest distance accepted, and one past it. -/
theorem witness_trace : fabOpen.live = true ∧ hasTrace fabOpen.variant = true ∧ 3 < nDies fabOpen.variant ∧
    ((0x8000 : BitVec 16) - 0).toNat ≤ 32768 ∧ 32768 < ((0x8001 : BitVec 16) - 0).toNat := by decide +kernel

/-! Network interfaces -/

/-- A packet as a receive buffer holds it; an NI that holds it on one VC, and the NI once it is taken. -/
def inBuf (x : Packet) : QPkt := { hdr := x.hdr, pay := Packet.headPay x, body := Packet.bodyFlits x, tailIn := true }
def rxAt (f : Fabric) (p v : Nat) (q : QPkt) : Fabric := f.updNi p fun n => { n with vq := [(v, [q])] }
def taken (f : Fabric) (p v : Nat) (q : QPkt) : Fabric := ((rxAt f p v q).setVcQ (.ni p) v []).freePkt (.ni p) v q
def pk (h : Header) (body : Bytes) : Packet := { hdr := Header.seal h, body := body }
def ackPkt : Packet := pk { cls := 3, kind := 3, tag := 9 } []
def sigPkt : Packet := { pk { cls := 2, kind := 4, addr := 255 } [] with aux := sigAux 7 1 }
def donePkt : Packet := { pk { cls := 3, kind := 8, dmode := 2, tag := 9, len := 1 } [] with aux := redAux { redOf 0 with ecnt := 32 } }
def creditPkt : Packet := { pk { cls := 5, kind := 14, addr := 1 } [] with aux := xcAux 5 1 }
def readPkt (a n : Nat) : Packet := pk { cls := 2, kind := 0, addr := BitVec.ofNat 48 a, bcnt := BitVec.ofNat 13 n } []
def writePkt : Packet := pk { cls := 2, kind := 1, addr := 0x100, bcnt := 4, len := 1 } [1, 2, 3, 4]
/-- The Core NI at port 1,021 opens its memory to reads and writes. -/
def openLm : Fabric := withNi 1021 { cfg := { regs := [(0x50C, 0xC00FFFFF)] } }

/-- The FMU's port holds a FAULT packet. -/
theorem witness_fault_arrives : let x := faultPkt 0 1021 (mkFault 3 1021 1 1 false 0 0)
    let q := inBuf { x with hdr := Header.seal x.hdr }
    (((rxAt fabOpen fmuPort 0 q).ni fmuPort).vq.get 0 [] = [q]) ∧ q.tailIn = true ∧ q.hdr.kind = 11 ∧
    Header.checks q.hdr = true ∧ q.truncated = false ∧ badHeader q.hdr = false := by decide +kernel
theorem witness_injection : let f := fabOpen
    f.moving = true ∧ f.kind 1021 ≠ 0 ∧ f.powered 1021 = true ∧ (f.ni 1021).inj.sending = [] := by decide +kernel
/-- Queues: an answer, a credit packet, a SIG with one packet of credit, and a SIG without. -/
def offering (q credit : Nat) (x : Packet) : Fabric :=
  let f0 := withNi 3 { inj := { queues := [(q, [{ pkt := x, resolved := true }])], ccSig := credit } }
  let f1 := ((f0.ni 3).inj.queues.map (·.1)).foldl (fun g r => g.settleHead 3 r (12 * (g.injQ 3 r).length + 12)) f0
  (f1.askTokens 3).setReasons 3
theorem witness_injection_order : (offering 101 0 ackPkt).faultNext 3 = none ∧ (offering 101 0 ackPkt).schShot 3 = none ∧ ((offering 101 0 ackPkt).offer 3 101).isSome = true ∧
    (let f := offering 102 65536 sigPkt
     f.schShot 3 = none ∧ f.offer 3 101 = none ∧ f.offer 3 104 = none ∧ (f.ni 3).inj.ccSig = 65536 ∧
     (f.offer 3 102).isSome = true) ∧
    (let f := offering 102 65535 sigPkt
     (f.ni 3).inj.ccSig < 65536 ∧ f.offer 3 104 = none) ∧
    (let f := offering 104 0 creditPkt
     f.schShot 3 = none ∧ f.offer 3 101 = none ∧ f.onlyAnswers 3 = false ∧ (f.offer 3 104).isSome = true) := by decide +kernel

theorem witness_answer : let f := rxAt fabOpen 1021 6 (inBuf ackPkt)
    f.moving = true ∧ f.powered 1021 = true ∧ f.kind 1021 ≠ 0 ∧
    delivers f 1021 (fun x => f.takesAnswer 1021 x.hdr) (inBuf ackPkt) (taken fabOpen 1021 6 (inBuf ackPkt)) := by
  simp only [delivers]; decide +kernel
theorem witness_done : let f := rxAt fabOpen 1021 6 (inBuf donePkt)
    f.kind 1021 = 1 ∧ delivers f 1021 (fun x => x.hdr.kind == 8 && !f.rootCopy 1021 x) (inBuf donePkt)
      (taken fabOpen 1021 6 (inBuf donePkt)) := by simp only [delivers]; decide +kernel
/-- The answer to a chunk with a result of 32 elements of one byte, and its entry; a credit of an egress gateway. -/
def chunkDone : Packet := { pk { cls := 3, kind := 8, dmode := 2, tag := 9, fmt := 11, addr := 0x100, bcnt := 32, len := 2 } (List.replicate 32 7) with
                            aux := redAux { redOf 0 with ecnt := 32 } }
theorem witness_chunk : let o : OrtEntry := {
      tag := 9, seq := 0, dom := 0, purpose := .chunk 15 0 0, red := true, req := { cls := 2, kind := 7 }, since := 0, limit := 1024 }
    let f0 := withNi 1021 { ini := { ort := [o] } }
    let f := rxAt f0 1021 6 (inBuf chunkDone)
    let g := taken f0 1021 6 (inBuf chunkDone)
    let x := (inBuf chunkDone).packet
    delivers f 1021 (fun x => x.hdr.kind == 8 && !f.rootCopy 1021 x) (inBuf chunkDone) g ∧ doneBad x.hdr (redOf x.aux) = false ∧
    (g.ni 1021).ini.ort.filter (fun y => y.matches x.hdr) = [o] ∧ o.dom = x.hdr.domain ∧ (redOf x.aux).rop ≠ 7 ∧ x.body ≠ [] := by
  simp only [delivers]; decide +kernel
theorem witness_core_credit : let x : Packet := { pk { cls := 5, kind := 14, src := 3 } [] with aux := xcAux 5 1 }
    let f := rxAt fabOpen 1021 10 (inBuf x)
    let g := taken fabOpen 1021 10 (inBuf x)
    f.kind 1021 = 1 ∧ g.kind 1021 = 1 ∧ delivers f 1021 (fun x => x.hdr.kind == 14) (inBuf x) g ∧
    badHeader (inBuf x).packet.hdr = false ∧ (inBuf x).packet.hdr.addr = 0 ∧
    xcGseq (inBuf x).packet.aux = (g.ni 1021).gseq.expect.get (4 * portOf (inBuf x).packet.hdr.src) 1 := by
  simp only [delivers]; decide +kernel
theorem witness_sig : let f := rxAt fabOpen 1021 4 (inBuf sigPkt)
    let g := taken fabOpen 1021 4 (inBuf sigPkt)
    f.kind 1021 = 1 ∧ g.kind 1021 = 1 ∧
    delivers f 1021 (fun x => x.hdr.kind == 4 && !(f.kind 1021 == 3 && x.hdr.cls == 5)) (inBuf sigPkt) g ∧
    badHeader (inBuf sigPkt).packet.hdr = false ∧ (inBuf sigPkt).packet.hdr.addr.toNat < 256 := by
  simp only [delivers]; decide +kernel
theorem witness_local_mem : ∀ x ∈ [readPkt 0x100 4, writePkt], let f := rxAt openLm 1021 4 (inBuf x)
    let g := taken openLm 1021 4 (inBuf x)
    let h := (inBuf x).packet.hdr
    f.kind 1021 = 1 ∧ delivers f 1021 (fun x => (x.hdr.kind == 0 || x.hdr.kind == 1) && !isNotice x.hdr &&
      (x.hdr.cls != 2 || (f.ni 1021).lmBusy < 16)) (inBuf x) g ∧ h.cls ≠ 1 ∧ h.cls ≠ 5 ∧
    badHeader h = false ∧ g.lmOpen 1021 h.addr.toNat h.bcnt.toNat (h.kind == 1) = true ∧ h.kind = x.hdr.kind := by
  simp only [delivers]; decide +kernel
theorem witness_directory : let x := readPkt 0x1FFFC 4
    let f := rxAt fabOpen 111 4 (inBuf x)
    let g := taken fabOpen 111 4 (inBuf x)
    f.kind 111 = 4 ∧ delivers f 111 (fun x => x.hdr.kind == 0 || x.hdr.kind == 1) (inBuf x) g ∧
    badHeader (inBuf x).packet.hdr = false ∧ (g.dirWords 111 (inBuf x).packet.hdr).isSome = true := by
  simp only [delivers]; decide +kernel
theorem witness_target_request : let x := writePkt
    let f := rxAt fabOpen 2 4 (inBuf x)
    let g := taken fabOpen 2 4 (inBuf x)
    let h := (inBuf x).packet.hdr
    f.kind 2 = 2 ∧ f.powered 2 = true ∧ delivers f 2 (f.takesRequest 2) (inBuf x) g ∧ h.kind = 1 ∧ badHeader h = false ∧
    g.inStack 2 h.addr.toNat h.bcnt.toNat = true ∧ g.regionDenied h.addr.toNat h.domain.toNat = false := by
  simp only [delivers]; decide +kernel
/-- One packet whose check fails and one whose tail came early. -/
def badCheck : QPkt := inBuf { sigPkt with hdr := { sigPkt.hdr with hchk := sigPkt.hdr.hchk + 1 } }
def cutShort : QPkt := { inBuf (pk { cls := 2, kind := 1, addr := 0x100, bcnt := 200, len := 3 } []) with body := [0] }
theorem witness_spoilt_check : takeVc (fun _ => true) (rxAt fabOpen 1021 4 badCheck) 1021 (List.range 12) =
      some (badCheck, taken fabOpen 1021 4 badCheck) ∧ Header.checks badCheck.hdr = false := by decide +kernel
theorem witness_spoilt_tail : takeVc (fun _ => true) (rxAt fabOpen 1021 4 cutShort) 1021 (List.range 12) =
      some (cutShort, taken fabOpen 1021 4 cutShort) ∧ Header.checks cutShort.hdr = true ∧ cutShort.truncated = true := by
  decide +kernel
theorem witness_request_timer : let o : OrtEntry := { tag := 9, seq := 0, dom := 0, purpose := .run 0 0 0, req := {}, since := 0, limit := 1024 }
    let f := withNi 1021 { ini := { ort := [o] } }
    f.moving = true ∧ f.kind 1021 ≠ 0 ∧ f.powered 1021 = true ∧ (f.ni 1021).ini.ort.find? (fun x => x.red == o.red &&
      x.tag == o.tag && x.seq == o.seq && x.limit != 0 && f.due (x.since + x.limit * f.unit) &&
      !(f.ni 1021).answerWaits x) = some o := by decide +kernel
theorem witness_tag_hold : let f := withNi 1021 { ini := { heldTags := [(9, 100)] } }
    f.moving = true ∧ f.powered 1021 = true ∧ (f.ni 1021).ini.heldTags.find? (fun x => x.1 == 9) = some (9, 100) ∧
    f.due 100 = true := by decide +kernel
theorem witness_pool : let f : Fabric := { withNi 253 { ini := { poolFlits := [5], pool := 1 } } with variant := .t1 }
    f.moving = true ∧ f.variant = .t1 ∧ f.kind 253 = 1 ∧ f.powered 253 = true ∧ (f.ni 253).ini.poolFlits = 5 :: [] := by
  decide +kernel
/-- A window of one page is admitted; one of more pages than the cache has is not. -/
theorem witness_window : let e : QEntry := { opStarted ocMove 0 with work := { wins := [{ pages := [1] }] } }
    let f := withNi 1021 { tsq := { chans := [(15, { queue := [e] })] }, ini := { walkQ := [(15, 0, 0)] } }
    f.seqLive (.tsq 1021 15) = true ∧ (f.ni 1021).ini.walkQ = (15, 0, 0) :: [] ∧ f.entry (.tsq 1021 15) 0 = some e ∧
    (f.ni 1021).admits e.work.dom [1] = true ∧
    (f.ni 1021).admits e.work.dom ((List.range 257).map (BitVec.ofNat 36)) = false ∧
    (f.chan (.tsq 1021 15)).queue = [e] ∧ e.aborted = false ∧ e.work.wins[0]? = some { pages := [1] } ∧
    (f.ni 1021).tcFind e.work.dom 1 = none ∧
    (∀ k ∈ (f.ni 1021).tsq.chans, ∀ y ∈ k.2.queue, ∀ z ∈ y.work.wins, z.waiting = []) ∧ (f.ni 1021).walksOut < 16 ∧
    (f.ni 1021).walkSent 15 0 0 1 = false := by decide +kernel
theorem witness_walk_answer : let a := pk { cls := 3, kind := 2, tag := 9, bcnt := 8, len := 1 } (toBytesLE (2 ^ 63 + 5) 8)
    let o : OrtEntry := { tag := 9, seq := 0, dom := 0, purpose := .walk 15 0 0 0 1, req := { cls := 2, kind := 0 }, since := 0, limit := 1024 }
    let f := withNi 1021 { ini := { ort := [o] } }
    a.hdr.kind = 2 ∧ f.moving = true ∧ f.kind 1021 = 1 ∧ f.powered 1021 = true ∧ badHeader a.hdr = false ∧
    (f.ni 1021).ini.ort.find? (fun x => x.matches a.hdr) = some o ∧ o.dom = a.hdr.domain ∧ o.nack ≠ 1 ∧
    statusOfHdr a.hdr = .ok ∧ walkEntry a = some (true, false, 5) ∧ (f.ni 1021).tcFind 0 1 = none ∧
    (f.ni 1021).ini.tcache.length < 256 := by decide +kernel
/-- Notices from a port that is no translation service's and from one that is; with 31 waiting and with 32. -/
def notice (src : Nat) : Packet :=
  pk { cls := 2, kind := 1, addr := 0xFF0000000000, bcnt := 8, len := 1, src := BitVec.ofNat 28 src } (List.replicate 8 0)
theorem witness_notice : let x := notice
    let f := withNi 1021 { ini := { notices := List.replicate 32 (x 0, 0) } }
    f.kind 1021 = 1 ∧ isNotice (x 143).hdr = true ∧ isNotice (x 0).hdr = true ∧ badHeader (x 143).hdr = false ∧
    f.kind (fld (x 143).hdr.src 9 0) = 6 ∧
    f.kind (fld (x 0).hdr.src 9 0) ≠ 6 ∧ fld (x 143).hdr.src 25 10 = f.node 1021 ∧ 32 ≤ (f.ni 1021).ini.notices.length ∧
    (f.ni 1021).ini.noticeWait = [] ∧ (∀ q ∈ (f.ni 1021).vq.flatMap (·.2), q.hdr ≠ (x 143).hdr) ∧
    f.moving = true ∧ f.powered 1021 = true := by decide +kernel
/-- With 31 notices waiting, of a page that no entry holds and of one that an open request names. -/
theorem witness_notice_taken : ∀ b ∈ [true, false], let t : TcEntry := { id := 4, dom := 0, page := noticePage (notice 143), frame := 0, wp := false }
    let o : OrtEntry := { tag := 9, seq := 0, dom := 0, purpose := .run 0 0 0, req := {}, since := 0, limit := 1024, tc := some 4 }
    let f := withNi 1021 { ini := { notices := List.replicate 31 (notice 0, 0), tcache := if b then [t] else [], ort := [o] } }
    (f.ni 1021).ini.notices.length < 32 ∧ o ∈ (f.ni 1021).ini.ort ∧ o.tc = some t.id ∧
    (∀ k ∈ (f.ni 1021).tsq.chans, ∀ e ∈ k.2.queue, ∀ w ∈ e.work.wins, w.locks.find? (noticePage (notice 143)).toNat = none) ∧
    (f.ni 1021).tcFind (notice 143).hdr.domain (noticePage (notice 143)) = if b then some t else none := by decide +kernel
/-- A notice whose entry is free, with a further notice waiting and with none. -/
theorem witness_notice_release : ∀ l ∈ [[], [notice 143]],
    let f := withNi 1021 { ini := { notices := [(notice 143, 4)], noticeWait := l
                                    tcache := [{ id := 4, dom := 0, page := 0, frame := 0, wp := false, withdrawing := true }] } }
    takeFirst (fun y => (f.ni 1021).entryFree y.2) (f.ni 1021).ini.notices = some ((notice 143, 4), []) ∧
    (f.ni 1021).ini.noticeWait = l := by decide +kernel
theorem witness_tree_descriptor : let e := opStarted ocTree 0
    (chanHolds e).seqLive (.tsq 1021 15) = true ∧ (chanHolds e).running (.tsq 1021 15) ocTree = some e ∧ fld e.op 95 94 = 0 ∧
    e.work.tags = [] ∧ e.aborted = false := by decide +kernel
/-- A load of 4,096 bytes that ends at the top of the address space is refused; one of pool memory in
full service is not. -/
def loadStatus (f : Fabric) (a n : Nat) : Option Status :=
  ((loadParts a n).zip (List.range (loadParts a n).length)).findSome? (fun x =>
    f.loadCheck 1021 (f.loadHdr 1021 false 0 x.2 x.1.1 x.1.2))
theorem witness_load_path : let f := withNi 1021 { cfg := { ep0 := [(0, 0xE0000000), (1, 0xFFFFFFFF), (2, 0xFFFFFFFF)] } }
    f.moving = true ∧ f.fmu.prog.open_ = true ∧ f.kind 1021 = 1 ∧ f.powered 1021 = true ∧
    (loadStatus f (2 ^ 48 - 4096) 4096).isSome = true ∧ loadStatus f 0 4096 = none := by
  decide +kernel

/-! Targets, leaves and roots -/

/-- A Target NI with one line request, not yet taken or taken, of a place of n lines. -/
def place (n : Nat) : Place := { req := writePkt.hdr, lines := n, made := n }
def lineReq (t : Bool) : LineReq :=
  { id := 21, place := 3, idx := 0, write := false, addr := 0, ben := 0, data := [], since := 0, taken := t }
def targetFab (t : Bool) (n : Nat) : Fabric := withNi 1022 { tgt := { lines := [lineReq t], places := [(3, place n)] } }
theorem witness_lines : niActs (targetFab false 1) 1022 2 ∧
    ((targetFab false 1).ni 1022).tgt.lines.findIdx? (fun x => !x.taken) = some 0 ∧
    ((targetFab false 1).ni 1022).tgt.lines[0]? = some (lineReq false) ∧
    (∀ l ∈ ((targetFab false 1).ni 1022).tgt.lines, ¬ (l.taken = true ∧ l.id = (21 : BitVec 8).toNat)) := by
  simp only [niActs]; decide +kernel
theorem witness_line_answers : ∀ n ∈ [1, 2], let f := targetFab true n
    takeFirst (fun x => x.taken && x.id == (21 : BitVec 8).toNat) (f.ni 1022).tgt.lines = some (lineReq true, []) ∧
    (f.ni 1022).tgt.places.find? (lineReq true).place = some (place n) ∧ (place n).lines = n ∧ (place n).answered = 0 ∧
    (∀ x ∈ (f.ni 1022).tgt.places, x.2.lines ≤ x.2.made) ∧
    (f.ni 1022).tgt.stallEpisode = false ∧ (f.ni 1022).tgt.lines.find? (fun x => f.due (x.since + f.localTmo 1022 * f.unit)) =
      some (lineReq true) := by decide +kernel
theorem witness_dat : let d : DatEntry := { id := 0, fwd := true, req := writePkt.hdr, answer := some ackPkt }
    let f := withNi 1022 { tgt := { dat := [d] } }
    (f.ni 1022).tgt.dat.find? (fun x => x.answer.isSome && !x.rereading) = some d ∧ d.answer = some ackPkt ∧ d.req.kind ≠ 0 ∧
    ∀ x ∈ (f.ni 1022).tgt.places, ∀ i, x.2.kind ≠ .reread i := by
  refine ⟨by decide +kernel, by decide +kernel, by decide +kernel, fun x hx => ?_⟩
  exact absurd hx (List.not_mem_nil)
/-- A deferred read whose answer carries the bytes, and one whose answer carries none. -/
theorem witness_dat_read : ∀ n ∈ [4, 0], let a := pk { cls := 5, kind := 2, tag := 9, bcnt := BitVec.ofNat 13 n } []
    let d : DatEntry := { id := 0, fwd := true, req := { (readPkt 0x100 4).hdr with cls := 5 }, answer := some a }
    let f := withNi 1022 { tgt := { dat := [d] } }
    (f.ni 1022).tgt.dat.find? (fun x => x.answer.isSome && !x.rereading) = some d ∧ d.answer = some a ∧ d.req.kind = 0 ∧
    (a.hdr.bcnt = d.req.bcnt ↔ n = 4) := by decide +kernel
theorem witness_frozen_target : let f : Fabric := { fabOpen with fmu := { fabOpen.fmu with stop := { stopped := true } } }
    f.live = true ∧ f.fmu.stop.stopped = true ∧ f.kind 1022 = 2 ∧ f.powered 1022 = true := by decide +kernel
def copyPkt : Packet := pk { cls := 4, kind := 5, dmode := 2, addr := 0x100, bcnt := 4, len := 1, rport := 1021 } [1, 2, 3, 4]
theorem witness_leaf_report : let f := rxAt openLm 1021 8 (inBuf copyPkt)
    let g := taken openLm 1021 8 (inBuf copyPkt)
    f.kind 1021 = 1 ∧ g.kind 1021 = 1 ∧ delivers f 1021 (fun x => x.hdr.kind == 5 && x.hdr.cls == 4) (inBuf copyPkt) g ∧
    badHeader (inBuf copyPkt).packet.hdr = false := by simp only [delivers]; decide +kernel
/-- A result of four bytes at its root port, which may be written there or not. -/
def resultPkt : Packet := { pk { cls := 3, kind := 8, dmode := 2, tag := 9, bcnt := 4, len := 2, addr := 0x100 } [1, 2, 3, 4] with
                            aux := redAux (redOf 0) }
def rootFab (open_ : Bool) : Fabric :=
  { (if open_ then openLm else fabOpen) with stops := [(255, { leaf := [(0, { hdr := resultPkt.hdr, root := some { slot := 0, entry := 0, pkt := resultPkt, status := .ok } })] })] }
theorem witness_root_report : ∀ o ∈ [true, false], let f := rxAt (rootFab o) 1021 6 (inBuf resultPkt)
    let g := taken (rootFab o) 1021 6 (inBuf resultPkt)
    f.moving = true ∧ f.powered 1021 = true ∧ g.kind 1021 = 1 ∧
    delivers f 1021 (fun x => x.hdr.kind == 8 && f.rootCopy 1021 x) (inBuf resultPkt) g ∧
    badHeader (inBuf resultPkt).packet.hdr = false ∧
    g.lmOpen 1021 (resultAddr (inBuf resultPkt).packet.hdr (inBuf resultPkt).packet.aux) (inBuf resultPkt).packet.body.length
      true = o := by simp only [delivers]; decide +kernel
theorem witness_committed : let f (k : PlaceKind) := withNi 1022 { tgt := { places := [(3, { place 1 with answered := 1, kind := k })] } }
    niActs (f (.mcCopy 7)) 1022 2 ∧
    ((f (.mcCopy 7)).ni 1022).tgt.committed false = some (3, { place 1 with answered := 1, kind := .mcCopy 7 }, 7) ∧
    ((f (.rootResult 7)).ni 1022).tgt.committed true = some (3, { place 1 with answered := 1, kind := .rootResult 7 }, 7) := by
  simp only [niActs]; decide +kernel
theorem witness_digest_read : let r := pk { cls := 2, kind := 0, addr := 0xFE0000000000, bcnt := 64, src := BitVec.ofNat 28 securityPort } []
    r.hdr.kind = 0 ∧ (∀ q ∈ (fabOpen.ni fmuPort).vq.flatMap (·.2), q.hdr ≠ r.hdr) ∧ fld r.hdr.src 9 0 = securityPort ∧
    fld r.hdr.src 25 10 = fabOpen.node fmuPort ∧ r.hdr.bcnt = 64 ∧ r.hdr.addr = (0xFE0000000000 : BitVec 48) := by
  decide +kernel

/-! Stops and links -/

/-- Input 7, VC 11: a head not yet examined; a SIG behind a waiting one for the same counter; an
acknowledgement behind one of the same run; a copy that waits for a leaf slot. -/
def queueFab (l : List QPkt) : Fabric := withStop 255 { vq := [(12 * 7 + 11, l)] }
def onward (x : Packet) : QPkt := { inBuf x with route := .go [{ out := 1, hdr := x.hdr, aux := x.aux }] }
def mcAckPkt : Packet := { pk { cls := 3, kind := 6, tag := 9 } [] with aux := mcAckAux 1 0 0 }
theorem witness_head : let f := queueFab [inBuf sigPkt]
    f.moving = true ∧ 255 < nStops f.variant ∧ (f.stopQ 255 95).findIdx? (fun x => x.route == .fresh) = some 0 ∧
    (f.stopQ 255 95)[0]? = some (inBuf sigPkt) ∧ mergeInto (hasRdu f.variant) 0 (f.stopQ 255 95) = none := by decide +kernel
theorem witness_merge : ∀ x ∈ [sigPkt, mcAckPkt], let f := queueFab [onward x, inBuf x]
    (f.stopQ 255 95).findIdx? (fun x => x.route == .fresh) = some 1 ∧ (f.stopQ 255 95)[1]? = some (inBuf x) ∧
    (mergeInto (hasRdu f.variant) 1 (f.stopQ 255 95)).isSome = true ∧ sigPkt.hdr.kind ≠ 6 ∧ mcAckPkt.hdr.kind = 6 := by decide +kernel
theorem witness_leaf_slot : let q : QPkt := { inBuf copyPkt with route := .go [{ out := 5, hdr := copyPkt.hdr, aux := 0, wantsSlot := true }] }
    let f := queueFab [q]
    (f.stopQ 255 95).findIdx? QPkt.wantsSlot = some 0 ∧ (f.stopQ 255 95)[0]? = some q ∧ (f.stopU 255).freeSlot = some 0 := by
  decide +kernel
theorem witness_sink_stall : let q : QPkt := { inBuf sigPkt with route := .go [{ out := 5, hdr := sigPkt.hdr, aux := 0 }] }
    let f := queueFab [q]
    let lim := 16 * max 1 (fld (f.stopReg 255 0x340) 15 0) * f.unit
    (f.stopU 255).obs.sinkEpisode.contains 5 = false ∧ ((f.stopU 255).waitingFor 5).find? (fun x =>
      mustConsume (f.kind 1021) x.hdr && f.due ((f.stopU 255).sinkFrom 5 x + lim)) = some q := by decide +kernel
theorem witness_flit : fabOpen.moving = true ∧ fabOpen.endLive (.niIn 1021) = true := by decide +kernel
/-- A sender that has rewound and one that has not, its timer at 36. -/
theorem witness_ack_timer : ∀ b ∈ [true, false], let f := withStop 255 { tx := [(5, { ackAt := some 36, rewound := b })] }
    f.endLive (.niIn 1021) = true ∧ (f.tx (f.peer (.ni 1021))).ackAt = some 36 ∧ f.due 36 = true ∧
    (f.tx (f.peer (.ni 1021))).rewound = b := by decide +kernel
theorem witness_silence : let f0 := withStop 255 { tx := [(inputOf 3, { state := .up })] }
    let f := f0.updTx (f0.peer (.st 255 (inputOf 3))) fun t => { t with state := .withdrawn }
    f.moving = true ∧ f.linkUp (.st 255 (inputOf 3)) = true ∧ (f.tx (f.peer (.st 255 (inputOf 3)))).state = .withdrawn ∧
    f.due ((f.rx (.st 255 (inputOf 3))).lastIntact + silenceLimit (f.endBridge (.st 255 (inputOf 3))) * f.unit) = true := by
  decide +kernel
/-- Flits: the one after `LACK`, the one after that, and an idle flit. -/
theorem witness_flit_order : let e : End := .ni 1021
    let c (ft : BitVec 3) (n : BitVec 8) : Ctl := Ctl.ofBits (Ctl.toBits { Ctl.ofBits 0 with ftype := ft, lseq := n })
    (fabOpen.rx e).lack + 1 = 0 ∧ (c ftHead 0).ftype ≠ ftIdle ∧ (c ftHead 0).lseq = 0 ∧ (c ftHead 1).lseq ≠ 0 ∧
    (c ftIdle 0).ftype = ftIdle := by decide +kernel

/-! RDUs and trees -/

def contribPkt : Packet := pk { cls := 2, kind := 7, group := 65 } []
theorem witness_contribution : ∀ x ∈ [contribPkt, donePkt], let q : QPkt := { inBuf x with route := .rdu }
    let f := queueFab [q]
    ((f.rduPump 255).stopQ 255 95).findIdx? (fun x => x.route == .rdu && x.tailIn) = some 0 ∧
    ((f.rduPump 255).stopQ 255 95)[0]? = some q ∧ contribPkt.hdr.kind ≠ 8 ∧ donePkt.hdr.kind = 8 := by decide +kernel
/-- A contribution of 32 elements of one byte for tree 65, whose entry is 0 of stop 255: no buffer of its chunk
is open, or one is. -/
def redPkt : Packet := { pk { cls := 4, kind := 7, dmode := 2, group := 65, tag := 65, fmt := 11, bcnt := 32, len := 2 } (List.replicate 32 7) with
                         aux := redAux { redOf 0 with rop := 2, ecnt := 32, ncontrib := 1 } }
theorem witness_merge_contribution : ∀ b ∈ [true, false], let q : QPkt := { inBuf redPkt with route := .rdu }
    let o : RduBuf := { tree := 65, seq := 0, anchorPass := false, entry := 0, merged := 1, openedAt := 0, hdr := redPkt.hdr }
    let w (r : Rdu) : Rdu := { r with tree := [(1, BitVec.ofNat 32 (2 ^ 31 + 4 * 2 ^ 21 + 3 * 2 ^ 16)), (2, BitVec.ofNat 32 (2 * 2 ^ 28 + 11 * 2 ^ 17 + 11 * 2 ^ 13 + 1024)), (7, 32)] }
    let f := withStop 255 { vq := [(95, [q])], cfg := { tabs := [(tkey 2 0, BitVec.ofNat 32 (2 ^ 31 + 65))] }
                            rdu := w { bufs := if b then [(31, o)] else [] } }
    ((f.rduPump 255).treeAt 255 65, (f.rduPump 255).contribBad 255 0 q.packet.hdr (redOf q.packet.aux),
      ((f.rduPump 255).stopU 255).rdu.bufOf 65 0 false, (f.rduPump 255).freeBuf 255 0 65, (f.redCfg 255 0).rop) =
      (some 0, false, if b then some (31, o) else none, some 0, 2) := by decide +kernel
/-- Buffer 31 holds one contribution of two, its hold time at the least value. -/
theorem witness_hold_timer : let b : RduBuf := { tree := 65, seq := 0, anchorPass := false, entry := 0, merged := 1, openedAt := 0, hdr := {} }
    let f := withStop 255 { rdu := { bufs := [(31, b)], tree := [(1, BitVec.ofNat 32 (2 * 2 ^ 16)), (3, BitVec.ofNat 32 (2 ^ 16))] } }
    f.moving = true ∧ NMap.find? (f.stopU 255).rdu.bufs 31 = some b ∧ b.merged < twExpect (f.trw 255 b.entry 1) ∧
    twHtmo (f.trw 255 b.entry 3) = 1 ∧ f.due (b.openedAt + twHtmo (f.trw 255 b.entry 3) * 1024 * f.unit) = true := by decide +kernel
/-- The requests of a slice: a set-up with its descriptor, a join, a leave, and a read. -/
def treePkt (act n : Nat) : Packet := pk
  { cls := 2, kind := 1, addr := BitVec.ofNat 48 (0xFD0000000000 + act * 4096 + 2), bcnt := BitVec.ofNat 13 n, len := 1 }
  (List.replicate n 0)
theorem witness_tree_requests : ∀ x ∈ [(0, 64), (1, 0), (2, 0)], let f := rxAt fabOpen 883 4 (inBuf (treePkt x.1 x.2))
    let g := taken fabOpen 883 4 (inBuf (treePkt x.1 x.2))
    let r := (inBuf (treePkt x.1 x.2)).packet
    f.moving = true ∧ 3 < nDies f.variant ∧ hasRdu f.variant = true ∧ slicePort 3 = 883 ∧
    delivers f 883 (fun x => (x.hdr.kind == 0 || x.hdr.kind == 1) && !(883 == fmuPort && x.hdr.kind == 0))
      (inBuf (treePkt x.1 x.2)) g ∧
    (r.hdr.kind == 1 && fld r.hdr.addr 47 40 == 0xFD && kindLegal r.hdr) = true ∧ treeAct r = x.1 ∧ r.hdr.bcnt.toNat = x.2 ∧
    r.hdr.len = 1 ∧ lengthsLegal r.hdr = (x.1 == 0) := by simp only [delivers]; decide +kernel
/-- Stop 255 grants tree 2 and takes domain 0 at port 1,021, which can reach it; a tree of that port alone, of
8-bit maxima, with the port as a member of its descriptor or joining it. -/
def treeFab : Fabric := {
  fabOpen with
  stops := [(255, { cfg := { regs := [(0x308, 1)], tabs := [(tkey 2 0, BitVec.ofNat 32 (2 ^ 31 + 2))] } })]
  nis := [(1021, { cfg := { ep0 := [(tkey 0 765, 0x80000000)] } })] }
def treeDesc (members : Nat) : BitVec 512 := BitVec.ofNat 512 (1021 + 11 * 2 ^ 12 + 11 * 2 ^ 16 + 2 * 2 ^ 20 + 2 ^ 32 + 2 ^ 35 +
  2 ^ 48 + members * (2 ^ 447 + 2 ^ 449) + 32 * 2 ^ 480)
theorem witness_tree_set_up : let r := { treePkt 0 64 with body := toBytesLE (treeDesc 1).toNat 64 }
    let f := rxAt treeFab 883 4 (inBuf r)
    let g := taken treeFab 883 4 (inBuf r)
    let x := (inBuf r).packet
    let d : BitVec 512 := BitVec.ofNat 512 (ofBytesLE x.body)
    let t : TreeRec := { owner := fld x.hdr.src 9 0, desc := d, members := tdMembers d }
    delivers f 883 (fun x => (x.hdr.kind == 0 || x.hdr.kind == 1) && !(883 == fmuPort && x.hdr.kind == 0)) (inBuf r) g ∧
    (x.hdr.kind == 1 && fld x.hdr.addr 47 40 == 0xFD && kindLegal x.hdr) = true ∧ x.hdr.bcnt = 64 ∧ lengthsLegal x.hdr = true ∧
    treeAct x = 0 ∧ (∀ b ∈ bitsSet 256 (tdMask t.desc), b < nStops g.variant) ∧ t.members = [1021] ∧
    (g.die 3).recs.find? (treeId x) = none ∧ (∀ y ∈ g.dies, ∀ z ∈ y.2.trees, treeId z.req ≠ treeId x) ∧
    g.treeCheck t (treeId x) x.hdr.domain.toNat false = none := by simp only [delivers]; decide +kernel
theorem witness_tree_grows : let q : TreeReq := { req := { treePkt 1 0 with hdr := { (treePkt 1 0).hdr with src := 1021 } }, freeze := true }
    let t : TreeRec := { owner := 0, desc := treeDesc 0, members := [] }
    let t2 : TreeRec := { t with members := [1021] }
    let f : Fabric := { treeFab with dies := [(3, { trees := [q], recs := [(2, t)] })] }
    let f1 := f.updDie 3 fun x => { x with trees := [] }
    takeFirst (fun x => x.freeze && f.treeIdle (treeId x.req) && !f.treeBusy (treeId x.req)) (f.die 3).trees = some (q, []) ∧
    (f.die 3).recs.find? (treeId q.req) = some t ∧ t.notChanged (treeAct q.req == 1) (fld q.req.hdr.src 9 0) = false ∧
    t.changed (treeAct q.req == 1) (fld q.req.hdr.src 9 0) = some t2 ∧
    f1.treeCheck t2 (treeId q.req) q.req.hdr.domain.toNat true = none := by decide +kernel
/-- A join and a leave of port 8, of a tree whose owner is port 0. -/
theorem witness_tree_change : ∀ act ∈ [1, 2], let r := { treePkt act 0 with hdr := Header.seal { (treePkt act 0).hdr with src := 8 } }
    let t : TreeRec := { owner := 0, desc := 0, members := if act = 1 then [] else [8] }
    let f0 : Fabric := { fabOpen with dies := [(3, { recs := [(2, t)] })] }
    let f := rxAt f0 883 4 (inBuf r)
    let g := taken f0 883 4 (inBuf r)
    let x := (inBuf r).packet
    delivers f 883 (fun x => (x.hdr.kind == 0 || x.hdr.kind == 1) && !(883 == fmuPort && x.hdr.kind == 0)) (inBuf r) g ∧
    (x.hdr.kind == 1 && fld x.hdr.addr 47 40 == 0xFD && kindLegal x.hdr) = true ∧ x.hdr.bcnt = 0 ∧ x.hdr.len = 1 ∧
    treeAct x = act ∧ (g.die 3).recs.find? (treeId x) = some t ∧
    t.notChanged (treeAct x == 1) (fld x.hdr.src 9 0) = false := by simp only [delivers]; decide +kernel
theorem witness_tree_refused : let f := rxAt fabOpen 883 4 (inBuf (readPkt 0 4))
    let g := taken fabOpen 883 4 (inBuf (readPkt 0 4))
    let r := (inBuf (readPkt 0 4)).packet
    delivers f 883 (fun x => (x.hdr.kind == 0 || x.hdr.kind == 1) && !(883 == fmuPort && x.hdr.kind == 0)) (inBuf (readPkt 0 4)) g ∧
    (r.hdr.kind == 1 && fld r.hdr.addr 47 40 == 0xFD && kindLegal r.hdr) = false := by simp only [delivers]; decide +kernel
/-- A leave by the owner, port 0, waits for its frozen tree. -/
theorem witness_tree_freeze : let q : TreeReq := { req := treePkt 2 0, freeze := true }
    let t : TreeRec := { owner := 0, desc := 0, members := [0] }
    let f : Fabric := { fabOpen with dies := [(3, { trees := [q], recs := [(2, t)] })] }
    f.moving = true ∧ takeFirst (fun x => x.freeze && f.treeIdle (treeId x.req) && !f.treeBusy (treeId x.req)) (f.die 3).trees =
      some (q, []) ∧ (f.die 3).recs.find? (treeId q.req) = some t ∧
    t.changed (treeAct q.req == 1) (fld q.req.hdr.src 9 0) = none := by decide +kernel
/-- The first of two confirmations, and the last one of a set-up and of a leave, with the tree that they make. -/
theorem witness_tree_confirms : ∀ x ∈ [(0, [255, 7]), (0, [255]), (2, [255])],
    let t : TreeRec := { owner := 0, desc := 0, members := [0] }
    let q : TreeReq := { req := treePkt x.1 0, confirm := x.2, words := [(255, [])], result := some t }
    let f0 := withStop 255 { cfg := { tabs := [(tkey 2 0, BitVec.ofNat 32 (2 ^ 31 + 2))] } }
    let f : Fabric := { f0 with dies := [(3, { trees := [q] })] }
    takeFirst (fun x : TreeReq => x.confirm.contains 255) (f.die 3).trees = some (q, []) ∧
    f.grantOf 255 (treeId q.req) = some (0, 0) ∧ q.confirm.erase 255 = x.2.erase 255 ∧ treeAct q.req = x.1 := by decide +kernel
/-- The last confirmation of a tear-down, from stop 255, where entry 0 of the Tree Table is granted to tree 2. -/
theorem witness_tree_confirm : let q : TreeReq := { req := treePkt 2 0, confirm := [255], words := [(255, [])] }
    let f0 := withStop 255 { cfg := { tabs := [(tkey 2 0, BitVec.ofNat 32 (2 ^ 31 + 2))] } }
    let f : Fabric := { f0 with dies := [(3, { trees := [q] })], fmu := { f0.fmu with road := { orders := [(.stop 255, .tree 3 255 [])] } } }
    f.moving = true ∧ takeFirst (fun x => match x.2 with | .tree a b _ => a == 3 && b == 255 | _ => false) f.fmu.road.orders =
      some ((.stop 255, .tree 3 255 []), []) ∧
    takeFirst (fun x : TreeReq => x.confirm.contains 255) (f.die 3).trees = some (q, []) ∧ q.confirm.erase 255 = [] ∧
    q.result = none ∧ f.grantOf 255 (treeId q.req) = some (0, 0) ∧ (q.words.all fun w => w.2.isEmpty) = true := by decide +kernel

/-! Gateways -/

/-- The Gateway NI at port 3, with node 9 as a peer; requests for node 9 and for node 10. -/
def gwFab (g : Gateway) : Fabric := withNi 3 { cfg := { tabs := [(tkey 4 0, BitVec.ofNat 32 (2 ^ 31 + 64 * 2 ^ 16 + 9))] }, gw := g }
def remotePkt (node : Nat) : Packet :=
  pk { cls := 5, kind := 1, addr := 0x100, bcnt := 4, len := 1, dest := BitVec.ofNat 28 (node * 1024 + 2), rport := 3 } [1, 2, 3, 4]
theorem witness_egress : let f := rxAt (gwFab {}) 3 10 (inBuf (remotePkt 9))
    let g := taken (gwFab {}) 3 10 (inBuf (remotePkt 9))
    niActs f 3 3 ∧ delivers f 3 (fun x => x.hdr.cls == 5 && x.hdr.kind != 14) (inBuf (remotePkt 9)) g ∧
    isFwdReq (inBuf (remotePkt 9)).packet.hdr = true ∧ badPacket (inBuf (remotePkt 9)).packet = false ∧
    (remotePkt 9).hdr.kind = 1 ∧
    (g.peerInit 3 (nodeOf (inBuf (remotePkt 9)).packet.hdr.dest)).isSome = true ∧ (g.ni 3).gw.stallEpisode = false := by
  simp only [niActs, delivers]; decide +kernel
theorem witness_handoff : ∀ n ∈ [9, 10], let f := gwFab { egress := [(remotePkt n, 0)] }
    niActs f 3 3 ∧ (f.ni 3).gw.toTransport = [] ∧ f.egNext 3 (f.ni 3).gw.egress = some ((remotePkt n, 0), []) ∧
    (f.peerInit 3 (nodeOf (remotePkt n).hdr.dest)).isSome = (n == 9) ∧
    (f.ni 3).gw.stallEpisode = false ∧ f.oldestEgress 3 = some 0 ∧ f.due (0 + f.localTmo 3 * f.unit) = true := by
  simp only [niActs]; decide +kernel
theorem witness_ingress : let bad : Packet := { remotePkt 9 with hdr := { (remotePkt 9).hdr with hchk := (remotePkt 9).hdr.hchk + 1 } }
    let a := pk { cls := 5, kind := 3, tag := 9 } []
    ((gwFab {}).ni 3).pwr.quiesce = false ∧ (remotePkt 9).hdr.cls = 5 ∧ Header.checks (remotePkt 9).hdr = true ∧
    isFwdReq (remotePkt 9).hdr = true ∧ (remotePkt 9).hdr.kind ≠ 7 ∧ Header.checks bad.hdr = false ∧ a.hdr.cls = 5 ∧
    Header.checks a.hdr = true ∧ isFwdReq a.hdr = false ∧ isAnswerKind a.hdr.kind.toNat = true := by decide +kernel
/-- From node 9's gateway: a write for the Target NI at port 2, and an acknowledgement for port 2. -/
theorem witness_ingress_own : let x : Packet := pk { cls := 5, kind := 1, addr := 0x100, bcnt := 4, len := 1, src := 9 * 1024, dest := 2 } [1, 2, 3, 4]
    let a := pk { cls := 5, kind := 3, tag := 9, dest := 2 } []
    let f := (gwFab {}).updNi 3 fun n => { n with gw := { n.gw with refused := none } }
    let f1 := f.updNi 3 fun y => { y with gw := { y.gw with
      inFrom := y.gw.inFrom.put 9 ((f.ni 3).gw.inFrom.get 9 0 + 1), inUsed := y.gw.inUsed + 1 } }
    Header.checks x.hdr = true ∧ isFwdReq x.hdr = true ∧ nodeOf x.hdr.src = 9 ∧ x.hdr.len.toNat = 1 ∧
    (f.ni 3).gw.inFrom.get 9 0 + 1 ≤ (f.peerInit 3 9).getD 0 ∧ f1.crawl = false ∧ (f.ni 3).pwr.fence = false ∧
    (f.ni 3).pwr.dfence.getLsbD x.hdr.domain.toNat = false ∧ badPacket x = false ∧ nodeOf x.hdr.dest = f.node 3 ∧
    portOf x.hdr.dest = 2 ∧ 2 < nPorts f.variant ∧ f1.preview 3 x.hdr ≠ 2 ∧ f.kind 2 ≠ 1 ∧
    (f.ni 3).gw.inAnswers + a.hdr.len.toNat ≤ 2048 ∧ badPacket a = false ∧ nodeOf a.hdr.dest = f.node 3 ∧
    portOf a.hdr.dest < nPorts f.variant ∧ a.hdr.kind ≠ 8 ∧ isAnswerKind a.hdr.kind.toNat = true := by decide +kernel
theorem witness_fanout : let o : OrtEntry := {
      tag := 9, seq := 0, dom := 0, purpose := .rdRelay 9 65, red := true, req := { cls := 2, kind := 7 }, since := 0
      limit := 1024 }
    let f0 := withNi 3 { ini := { ort := [o] } }
    let f := rxAt f0 3 6 (inBuf donePkt)
    let g := taken f0 3 6 (inBuf donePkt)
    delivers f 3 (fun x => x.hdr.kind == 8 && x.hdr.cls == 3) (inBuf donePkt) g ∧ badPacket (inBuf donePkt).packet = false ∧
    (g.ni 3).ini.ort.filter (fun y => y.matches (inBuf donePkt).packet.hdr) = [o] ∧ o.dom = (inBuf donePkt).packet.hdr.domain := by
  simp only [delivers]; decide +kernel
theorem witness_credit : let f := rxAt (gwFab {}) 3 6 (inBuf creditPkt)
    creditPkt.hdr.kind = 14 ∧ fld creditPkt.hdr.addr 1 0 = 1 ∧ creditPkt.hdr.addr = 1 ∧ badHeader creditPkt.hdr = false ∧
    xcGseq creditPkt.aux = (f.ni 3).gseq.expect.get (4 * (nodeOf creditPkt.hdr.src * 1024) + 1) 1 ∧
    delivers f 3 (fun x => x.hdr.kind == 14) (inBuf creditPkt) (taken (gwFab {}) 3 6 (inBuf creditPkt)) := by
  simp only [delivers]; decide +kernel
theorem witness_tokens : let f := gwFab { tokens := [(2, 5)] }
    0 < (f.ni 3).gw.tokens.get 2 0 ∧ ((f.ni 3).inj.queues.any fun q => q.2.any fun o => o.purpose.isNone && isFwdReq o.pkt.hdr &&
      o.pkt.hdr.rport.toNat == 2) = false ∧
    f.due ((f.ni 3).gw.tokLast.get 2 0 + max 1 (fld (f.niReg 3 0xA00) 15 0) * f.unit) = true := by decide +kernel

/-! Numbers and codes; stopped, and in reset -/

theorem witness_counts : ({ time := { fcc := 1048575 } } : Fabric).kOf = 1048575 ∧ ({ time := { fcc := 1048574 } } : Fabric).kOf < 1048575 := by
  decide +kernel
/-- The last stop and port of each variant. -/
theorem witness_numbers : 7 < ringW .t1 ∧ 7 < ringD .t1 ∧ 15 < ringW .t2 ∧ 7 < ringD .t2 ∧ 15 < ringW .t4 ∧ 15 < ringD .t4 := by decide
/-- A landing buffer with 104 shared entries in use, and one with none. -/
theorem witness_landing : let t : LinkTx := { used := [(0, 106)], shared := 104 }
    t.shared = ((List.range 12).map fun v => t.used.get v 0 - 2).sum ∧ t.shared ≤ 104 ∧ t.used.get 11 0 < 2 ∧ 0 < t.used.get 0 0 := by
  decide +kernel
/-- Partials of the narrowest width that add up to Z - 8, one of them not finite. -/
theorem witness_reduction : [4, -4, 15].Perm [15, 4, (-4 : Int)] ∧
    (((([4, -4, 15] : List Int) ++ []).filter (redFinite 5)).map Int.natAbs).sum ≤ 2 ^ (5 - 1) - 8 := by decide +kernel
theorem witness_standing : dataPlane (.niInject 0) = true ∧ (resetFab {} true).moving = false ∧
    ({ fabOpen with fmu := { fabOpen.fmu with stop := { stopped := true } } } : Fabric).moving = false := by decide +kernel
theorem witness_reset_held : heldInReset { fab := { boot := { inReset := true, rstN := false, latch := 3 } } } := by
  refine ⟨rfl, rfl, rfl, rfl, rfl, rfl, rfl, rfl, rfl, fun d => rfl, ?_⟩
  exact List.not_mem_nil
theorem witness_reset_begins : ∃ t, exec .fabRstAssert State.reset = .next t ∧ Instr.fabRstRelease ∉ State.reset.pending :=
  ⟨_, rfl, by decide⟩

end Sys2Proof.Tests
end

section
/-! SUPPORT. Numbers of stops, dies and ports (00 R9-R11). -/

namespace Sys2Proof.Machine

/-- The numbers that R10 and R11 read off package coordinates, wherever the point lies. -/
theorem coordinates_of_stopAt (x y p : Nat) (hp : p < 4) :
    stopAt x y = 64 * (x / 8 + 2 * (y / 8)) + (8 * (y % 8) + x % 8) ∧
    stopOfPort (4 * stopAt x y + p) = stopAt x y ∧ localOfPort (4 * stopAt x y + p) = p := by
  refine ⟨Nat.add_assoc .., ?_, ?_⟩
  · simp only [stopOfPort]; omega
  · simp only [localOfPort]; omega

theorem dieOfStop_stopAt (x y : Nat) : dieOfStop (stopAt x y) = x / 8 + 2 * (y / 8) := by
  simp only [dieOfStop, stopAt]; omega

/-- A die's column is its number's low bit, so `x` is read back where the lattice has two columns of dies. -/
theorem xOf_stopAt {x : Nat} (y : Nat) (hx : x < 16) : xOf (stopAt x y) = x := by
  rw [xOf, dieOfStop_stopAt, lxOf, stopAt]; omega

theorem yOf_stopAt {x : Nat} (y : Nat) (hx : x < 16) : yOf (stopAt x y) = y := by
  rw [yOf, dieOfStop_stopAt, lyOf, stopAt]; omega

theorem ringW_le (v : Variant) : ringW v ≤ 16 := by cases v <;> decide

/-- A point of the variant's lattice lies on one of its dies. -/
theorem dieOf_lt_nDies {v : Variant} {x y : Nat} (hx : x < ringW v) (hy : y < ringD v) :
    x / 8 + 2 * (y / 8) < nDies v := by
  cases v <;> simp only [ringW, ringD, nDies] at * <;> omega

/-- Settles O53: each variant has the lattice of its dies, and the numbers are sums of digits. -/
theorem stopAndPortNumbers : Obligations.StopAndPortNumbers := by
  intro v x y p hx hy hp
  have hx16 : x < 16 := Nat.lt_of_lt_of_le hx (ringW_le v)
  have hd := dieOf_lt_nDies hx hy
  obtain ⟨hs, hport, hlocal⟩ := coordinates_of_stopAt x y p hp
  have hl : 8 * (y % 8) + x % 8 < 64 := by omega
  refine ⟨by cases v <;> rfl, by cases v <;> rfl, dieOfStop_stopAt x y, hs, hl, ?_, by cases v <;> rfl,
    xOf_stopAt y hx16, yOf_stopAt y hx16, hport, hlocal, ?_, by cases v <;> rfl⟩
  · simp only [nStops]; omega
  · simp only [nPorts]; omega

end Sys2Proof.Machine
end

section
/-! SUPPORT. Accesses on the management bus, rule by rule (20 R427, R433). -/

namespace Sys2Proof.Machine

theorem gives.answers {c : Instr} {s : State} {g : Fabric} {P : Fabric → Prop} (h : gives c s g) (hP : P g) :
    answers c s P := ⟨g, h, hP⟩

section
variable {f : Fabric} {a off : Nat} {b : Block}

theorem Fabric.busAccess_misaligned (w : Option Word) (hf : f.live = true) (ha : a % 4 ≠ 0) :
    f.busAccess a w = f.busRefuse 1 a w.isSome := by
  simp [Fabric.busAccess, hf, ha]

theorem Fabric.busAccess_unmapped (w : Option Word) (hf : f.live = true) (ha : a % 4 = 0) (hb : blockOf a = none) :
    f.busAccess a w = f.busRefuse 0 a w.isSome := by
  simp [Fabric.busAccess, hf, ha, hb]

theorem Fabric.busAccess_absent (w : Option Word) (hf : f.live = true) (ha : a % 4 = 0)
    (hb : blockOf a = some (b, off)) (hp : f.present b = false) : f.busAccess a w = f.busReply 0 false := by
  simp [Fabric.busAccess, hf, ha, hb, hp]

theorem Fabric.busAccess_write (w : Word) (hf : f.live = true) (ha : a % 4 = 0)
    (hb : blockOf a = some (b, off)) (hp : f.present b = true) :
    f.busAccess a (some w) = (f.writeReg b off w).busReply 0 false := by
  simp [Fabric.busAccess, hf, ha, hb, hp]

end

/-- `FMU_SCRATCH` keeps the word written to it and has no other effect (20 R430). -/
theorem Fabric.writeReg_scratch (f : Fabric) (w : Word) :
    f.writeReg .fmu 0x2C w = { f with bus := { f.bus with scratch := w } } := rfl

/-- Only accesses to the blocks of stops and NIs can time out (20 R427). -/
theorem gives_busAccessTimeout {s : State} {a : Nat} (wr : Bool) (hf : s.fab.live = true) (ha : a % 4 = 0)
    (hb : ∃ n off, blockOf a = some (.stop n, off) ∨ blockOf a = some (.ni n, off)) :
    gives (.busAccessTimeout a wr) s (s.fab.busRefuse 2 a wr) := by
  change execBusAccessTimeout a wr s = _
  obtain ⟨n, off, hb | hb⟩ := hb <;> simp [execBusAccessTimeout, hb, hf, ha]

theorem gives_registerWrite (s : State) (a : Nat) (w : Word) :
    gives (.registerWrite a w) s (s.fab.busAccess a (some w)) := rfl

/-- Settles O32: the rules of R427 in their order, each an equation of the access. -/
theorem accessRules : Obligations.AccessRules := by
  intro s a w hf refused
  have hw := gives_registerWrite s a w
  have hrefused (cause : Nat) : refused (s.fab.busRefuse cause a true) (BitVec.ofNat 2 cause) :=
    ⟨rfl, rfl, rfl, rfl, rfl, rfl⟩
  refine ⟨fun ha => ?misaligned, fun ha hb => ?unmapped, fun b off ha hb hp => ?absent,
    fun b off ha hb hp => ?performed, fun ha => ?scratch, fun n off ha hb => ?timeout⟩
  case misaligned => exact (Fabric.busAccess_misaligned _ hf ha ▸ hw).answers (hrefused 1)
  case unmapped => exact (Fabric.busAccess_unmapped _ hf ha hb ▸ hw).answers (hrefused 0)
  case absent => exact Fabric.busAccess_absent _ hf ha hb hp ▸ hw
  case performed => exact Fabric.busAccess_write w hf ha hb hp ▸ hw
  case scratch =>
    subst ha
    have hb : blockOf 0x2C = some (.fmu, 0x2C) := rfl
    rw [Fabric.busAccess_write w hf rfl hb rfl, Fabric.writeReg_scratch] at hw
    exact hw.answers ⟨rfl, rfl, rfl, rfl⟩
  case timeout => exact (gives_busAccessTimeout true hf ha ⟨n, off, hb⟩).answers (hrefused 2)

end Sys2Proof.Machine
end

section
/-! SUPPORT. What each acknowledge leaves (00 R14). -/

namespace Sys2Proof.Machine

theorem Fabric.onBus_live {f : Fabric} (g : Fabric → Fabric) (hf : f.live = true) :
    f.onBus true g = (g f).busReply 0 false := by
  simp [Fabric.onBus, hf]

/-- A command that is a write access out of reset: what it does, and the reply. -/
theorem gives_onBus {c : Instr} {s : State} (g : Fabric → Fabric) (hc : exec c s = s.run fun f => f.onBus true g)
    (hf : s.fab.live = true) : gives c s ((g s.fab).busReply 0 false) := by
  rw [gives, hc, State.run_eq, Fabric.onBus_live g hf]

theorem Fabric.boardAck_none {f : Fabric} (h : f.fmu.boards.filling = none) :
    f.boardAck = f.updRes fun r => { r with board := r.board.ack } := by
  simp [Fabric.boardAck, h]

theorem Fabric.boardAck_some {f : Fabric} {ms : Nat} {b : NMap (NMap BoardCnt)} (h : f.fmu.boards.filling = some (ms, b)) :
    f.boardAck = (f.updRes fun r => { r with board := r.board.ack }).presentBoard ms b := by
  simp [Fabric.boardAck, h]

theorem Fabric.flogAck_nil {f : Fabric} (h : f.fmu.fault.log = []) : f.flogAck = f := by
  simp [Fabric.flogAck, Fabric.updFmu, h]

/-- The oldest entry leaves the log: it stays presented, and the next one takes its place (16 R364; log entry 131). -/
theorem Fabric.flogAck_cons {f : Fabric} {e : LogEntry} {rest : List LogEntry} (h : f.fmu.fault.log = e :: rest) :
    f.flogAck.fmu.fault = { f.fmu.fault.unlog e with
      log := rest, lastLog := some e
      headSeq := if rest = [] then f.fmu.fault.headSeq else f.fmu.fault.headSeq + 1 } := by
  simp [Fabric.flogAck, h, List.isEmpty_iff]

/-- The generation of an entry that leaves has one unacknowledged entry less (log entry 111). -/
theorem FaultState.unlog_esc {q : FaultState} {e : LogEntry} {g : Nat} (h : e.gen = some g) :
    (q.unlog e).esc = q.esc.map fun x => if x.gen == g then { x with unack := x.unack - 1 } else x := by
  simp [FaultState.unlog, h]

theorem Fabric.skewAck_skews {f : Fabric} {d : Nat} (hd : d < nDies f.variant) :
    (f.skewAck d).taux.skews.get d {} = { f.taux.skews.get d {} with valid := false } := by
  simp [Fabric.skewAck, hd]

theorem Fabric.skewAck_fmu (f : Fabric) (d : Nat) : (f.skewAck d).fmu = f.fmu := by
  unfold Fabric.skewAck Fabric.when
  split <;> rfl

/-- Settles O34: every acknowledge is a write access; one lemma says what it leaves for the rest. -/
theorem acknowledgesConsume : Obligations.AcknowledgesConsume := by
  intro s hf f r only
  refine ⟨gives_onBus Fabric.digestAck rfl hf, gives_onBus Fabric.ndetAck rfl hf, gives_onBus Fabric.chkAck rfl hf,
    gives_onBus Fabric.turnAck rfl hf, gives_onBus Fabric.drainAck rfl hf, gives_onBus Fabric.snapAck rfl hf,
    gives_onBus Fabric.wearAck rfl hf, (gives_onBus Fabric.frzAck rfl hf).answers ⟨rfl, rfl, rfl⟩,
    fun h => ?board, fun ms b h => ?boardNext, fun h => ?logEmpty, fun e rest h => ?log,
    (gives_onBus Fabric.busErrAck rfl hf).answers ⟨rfl, rfl⟩, fun d hd => ?skew⟩
  case board =>
    have hg : gives .boardAck s _ := gives_onBus Fabric.boardAck rfl hf
    rwa [Fabric.boardAck_none h] at hg
  case boardNext =>
    refine (gives_onBus Fabric.boardAck rfl hf).answers ?_
    rw [Fabric.boardAck_some h]
    exact ⟨rfl, rfl, rfl, rfl⟩
  case logEmpty =>
    have hg : gives .flogAck s _ := gives_onBus Fabric.flogAck rfl hf
    rwa [Fabric.flogAck_nil h] at hg
  case log =>
    refine (gives_onBus Fabric.flogAck rfl hf).answers ?_
    rw [Fabric.busReply_fmu, Fabric.flogAck_cons (f := s.fab) h]
    exact ⟨rfl, rfl, rfl, fun g hg => FaultState.unlog_esc hg⟩
  case skew =>
    exact (gives_onBus (·.skewAck d) rfl hf).answers ⟨Fabric.skewAck_skews hd, Fabric.skewAck_fmu f d⟩

end Sys2Proof.Machine
end

section
/-! SUPPORT. What a loop keeps, and what the completion of an op of the FMU's stream leaves alone. -/

namespace Sys2Proof.Machine

/-- What every round of a loop keeps, the loop keeps. -/
theorem Fabric.forEach_keeps {α β : Type} (part : Fabric → β) {g : Fabric → α → Fabric}
    (hg : ∀ f x, part (g f x) = part f) (f : Fabric) (l : List α) : part (f.forEach l g) = part f := by
  induction l generalizing f with
  | nil => rfl
  | cons x l ih => exact (ih (g f x)).trans (hg f x)

/-! ## The FMU's stream -/

/-- The FMU but for what its stream of ops is held in: the program, the channel and the counters. -/
def Fabric.offStream (f : Fabric) : Fmu := { f.fmu with prog := {}, chan := {}, ctrs := [] }

section
variable (f : Fabric) (g : Chan → Chan) (eid : Nat)

@[simp] theorem Fabric.updChan_fmu_offStream : (f.updChan .fmu g).offStream = f.offStream := rfl
@[simp] theorem Fabric.updCtr_fmu_offStream (n : Nat) (k : Counter → Counter) :
    (f.updCtr .fmu n k).offStream = f.offStream := rfl

@[simp] theorem Fabric.passOn_fmu_offStream (op : Op) : (f.passOn .fmu op).offStream = f.offStream := by
  rcases f.passOn_eq .fmu op with h | h <;> simp [h]

theorem Fabric.retire_fmu_offStream (e : QEntry) (st : Status) (info : BitVec 48) :
    (f.retire .fmu e st info).offStream = f.offStream := by
  have h : (if e.issued then f else f.passOn .fmu e.op).offStream = f.offStream := by split <;> simp
  exact h

theorem Fabric.settle_fmu_offStream : (f.settle .fmu).offStream = f.offStream := by
  unfold Fabric.settle
  extract_lets c f1
  have h1 : f1.offStream = f.offStream := by
    unfold f1
    split
    · rfl
    · exact Fabric.forEach_keeps Fabric.offStream (fun _ _ => Fabric.updCtr_fmu_offStream ..) _ c.aborts
  split
  · split
    · exact (Fabric.retire_fmu_offStream ..).trans h1
    · exact h1
  · exact h1

/-- An op that completes changes its stream and nothing else of the FMU (07 R170). -/
theorem Fabric.finish_fmu_offStream (st : Status) (info : BitVec 48) :
    (f.finish .fmu eid st info).offStream = f.offStream := by
  unfold Fabric.finish
  split
  · rfl
  · rw [Fabric.settle_fmu_offStream]
    split <;> exact Fabric.retire_fmu_offStream ..

@[simp] theorem Fabric.finish_fmu_res (st : Status) (info : BitVec 48) : (f.finish .fmu eid st info).fmu.res = f.fmu.res :=
  (congrArg Fmu.res (f.finish_fmu_offStream eid st info) :)
@[simp] theorem Fabric.finish_fmu_turn (st : Status) (info : BitVec 48) : (f.finish .fmu eid st info).fmu.turn = f.fmu.turn :=
  (congrArg Fmu.turn (f.finish_fmu_offStream eid st info) :)
@[simp] theorem Fabric.finish_fmu_drain (st : Status) (info : BitVec 48) : (f.finish .fmu eid st info).fmu.drain = f.fmu.drain :=
  (congrArg Fmu.drain (f.finish_fmu_offStream eid st info) :)
end

end Sys2Proof.Machine
end

section
/-! SUPPORT. Staging the Repair List publishes no result (16 R359). -/

namespace Sys2Proof.Machine

section
variable (f : Fabric)

theorem Fabric.stagePstateOff_fmu (p : Nat) : (f.stagePstateOff p).fmu = f.fmu :=
  Fabric.forEach_keeps Fabric.fmu (by intros; rfl) f _

theorem Fabric.stageRepair_res (r : Repair) : (f.stageRepair r).fmu.res = f.fmu.res := by
  unfold Fabric.stageRepair
  dsimp only
  split
  · rfl
  · split
    · rw [Fabric.stagePstateOff_fmu]; rfl
    · rfl

theorem Fabric.detourCols_fmu (hit : List (Nat × Nat)) : (f.detourCols hit).fmu = f.fmu :=
  Fabric.forEach_keeps Fabric.fmu (by intros; rfl) f _

theorem Fabric.detour_fmu (hit : List (Nat × Nat)) : (f.detour hit).fmu = f.fmu := by
  unfold Fabric.detour
  split
  · rfl
  · exact (Fabric.forEach_keeps Fabric.fmu (by intros; rfl) _ _).trans (f.detourCols_fmu hit)

theorem Fabric.clearFlow_fmu (g : Fabric) (flow : Nat) : (f.clearFlow g flow).fmu = f.fmu := by
  unfold Fabric.clearFlow
  extract_lets cores mine f1
  have hcores : f1.fmu = f.fmu := by
    refine Fabric.forEach_keeps Fabric.fmu (fun h p => ?_) f cores
    exact (Fabric.forEach_keeps Fabric.fmu (by intros; rfl) _ _).trans
      (Fabric.forEach_keeps Fabric.fmu (by intros; rfl) h _)
  refine (Fabric.forEach_keeps Fabric.fmu (fun h s => ?_) f1 _).trans hcores
  exact Fabric.forEach_keeps Fabric.fmu (by intros; rfl) h _

theorem Fabric.shed_res (g : Fabric) (r : Resv) : (f.shed g r).fmu.res = f.fmu.res := by
  unfold Fabric.shed
  change (if _ then _ else _ : Fabric).fmu.res = _
  split
  · rfl
  · exact congrArg Fmu.res (f.clearFlow_fmu g r.flow)

set_option smartUnfolding false in
/-- One round of shedding ends it or sheds one reservation (06 R145). Smart unfolding would evaluate the
1,024 entries of the reservation table first. -/
theorem Fabric.shedUntil_succ (n : Nat) :
    f.shedUntil (n + 1) = f ∨ ∃ r, f.shedUntil (n + 1) = (f.shed f.asStaged r).shedUntil n := by
  change ite _ _ _ = _ ∨ ∃ r, ite _ _ _ = _
  split
  · exact .inl rfl
  · split
    case h_1 r _ => exact .inr ⟨r, rfl⟩
    case h_2 => exact .inl rfl

theorem Fabric.shedUntil_res (n : Nat) : (f.shedUntil n).fmu.res = f.fmu.res := by
  induction n generalizing f with
  | zero => rfl
  | succ n ih =>
    obtain h | ⟨r, h⟩ := f.shedUntil_succ n
    · rw [h]
    · rw [h, ih, Fabric.shed_res]

theorem Fabric.shedAll_res : f.shedAll.fmu.res = f.fmu.res := by
  unfold Fabric.shedAll
  extract_lets g broken f1
  have h1 (l : List Resv) : (f.forEach l fun h r => h.shed g r).fmu.res = f.fmu.res :=
    Fabric.forEach_keeps (·.fmu.res) (fun h r => h.shed_res g r) f l
  rw [Fabric.shedUntil_res, h1]

/-- Staging the repairs publishes nothing. -/
theorem Fabric.stageRepairs_res : f.stageRepairs.fmu.res = f.fmu.res := by
  have h1 := Fabric.forEach_keeps (·.fmu.res) Fabric.stageRepair_res f f.fmu.fault.repairs
  unfold Fabric.stageRepairs
  dsimp only
  split
  · rfl
  · split
    · exact h1
    · rw [Fabric.shedAll_res, Fabric.detour_fmu]
      exact h1

end

end Sys2Proof.Machine
end

section
/-! SUPPORT. How the management ops of the FMU's stream start (15 R332-R346). -/

namespace Sys2Proof.Machine

theorem Fabric.forEach_updDie_fmu (f : Fabric) (l : List Nat) (k : DieSlice → DieSlice) :
    (f.forEach l fun g d => g.updDie d k).fmu = f.fmu := Fabric.forEach_keeps Fabric.fmu (by intros; rfl) f l

theorem Fabric.forEach_ungatePort_fmu (f : Fabric) (l : List Nat) :
    (f.forEach l fun g p => g.ungatePort p).fmu = f.fmu := Fabric.forEach_keeps Fabric.fmu (by intros; rfl) f l

theorem Fabric.setQuiesce_fmu (f : Fabric) (on : Bool) : (f.setQuiesce on).fmu = f.fmu :=
  Fabric.forEach_keeps Fabric.fmu (by intros; rfl) f _

/-- Sealing changes the FMU's stream, its turn and the turn's result; dies, ports and NIs are told (15 R338). -/
theorem Fabric.seal_fmu (f : Fabric) (e : QEntry) (m : Nat) :
    (f.seal e m).fmu.turn.sealed_ = true ∧ (f.seal e m).fmu.turn.m = BitVec.ofNat 40 m ∧
    (f.seal e m).fmu.turn.epoch = f.fmu.turn.epoch ∧
    (f.seal e m).fmu.res = { f.fmu.res with turn := f.fmu.res.turn.start } := by
  simp only [Fabric.seal, apply_ite Fabric.fmu, Fabric.setQuiesce_fmu, ite_self, Fabric.forEach_ungatePort_fmu,
    Fabric.forEach_updDie_fmu]
  exact ⟨rfl, rfl, rfl, rfl⟩

theorem Fabric.updRes_drained (f : Fabric) (r : Results → Results) (e : BitVec 1) :
    (f.updRes r).drained e = f.drained e := rfl

/-! ## Starting a management op (07 R162; 15 R332) -/

section
variable {s : State} {e : QEntry} {c : Instr} {oc : Nat} {k : Fabric → QEntry → Fabric} {g : Fabric}

/-- A management op at the head of the stream starts, while the package is not stopped. -/
theorem gives.startMgmt (h : gives c s (s.fab.startMgmt oc k)) (hs : fmuStartable s.fab e) (hm : s.fab.moving = true)
    (hg : s.fab.fmuSkip.begin .fmu e = g) (ho : opcOf e.op = oc) : gives c s (k g e) := by
  obtain ⟨hlive, hcan, hhead⟩ := hs
  rw [Fabric.startMgmt, Fabric.when_of _ hm, Fabric.startOp, Fabric.when_of _ hlive] at h
  simpa [hcan, hhead, ho, hg] using h

/-- One that waits for the earlier ops starts where none of them is left (15 R335, R338). -/
theorem gives.startAlone (h : gives c s (s.fab.startAlone oc k)) (hq : s.fab.fmu.chan.queue = []) (hs : fmuStartable s.fab e)
    (hm : s.fab.moving = true) (hg : s.fab.fmuSkip.begin .fmu e = g) (ho : opcOf e.op = oc) : gives c s (k g e) := by
  rw [Fabric.startAlone, hq] at h
  exact h.startMgmt hs hm hg ho

end

section
variable {s : State} {e : QEntry} {g : Fabric} (hs : fmuStartable s.fab e) (hm : s.fab.moving = true)
  (hg : s.fab.fmuSkip.begin .fmu e = g)
include hs hm hg

/-- STAGE: only the FMU's stream, its turn's mark and the orders on their way change when it is accepted. -/
theorem stage_starts (ho : opcOf e.op = ocStage) (hn : s.fab.stagesOpen < 64) :
    (∀ r, g.stageReason e.op = some r → gives .stage s (g.refuseOp e r)) ∧
    (g.stageReason e.op = none → answers .stage s fun h =>
      h.fmu.road.orders = g.fmu.road.orders ++ (g.stageUnits e.op).map (fun u =>
        (u, .stage e.eid (BitVec.ofNat 32 (stOffset e.op)) (stData e.op) e.op)) ∧
      h.fmu.turn.checked = false ∧ h.nis = g.nis ∧ h.stops = g.stops ∧ h.fmu.cfg = g.fmu.cfg) := by
  have h0 : gives .stage s (s.fab.when (s.fab.stagesOpen < 64) fun f => f.startMgmt ocStage _) := rfl
  rw [Fabric.when_of _ (decide_eq_true hn)] at h0
  have h := h0.startMgmt hs hm hg ho
  refine ⟨fun r hr => ?refused, fun hr => ?accepted⟩
  case refused => simpa only [hr] using h
  case accepted =>
    simp only [hr] at h
    exact h.answers ⟨rfl, rfl, rfl, rfl, rfl⟩

/-- A report of no violation sets the checked mark and publishes (15 R337). -/
theorem check_starts (ho : opcOf e.op = ocCheck) (hq : s.fab.fmu.chan.queue = []) :
    gives .check s (g.stageRepairs.checkReport e g.stageRepairs.violations) ∧
    (g.stageRepairs.violations = [] → answers .check s fun h =>
      h.fmu.turn.checked = true ∧ h.fmu.res.chk.valid = true ∧ h.fmu.res.chk.seq = g.fmu.res.chk.seq + 1) := by
  have h0 : gives .check s (s.fab.startAlone ocCheck _) := rfl
  have h : gives .check s (g.stageRepairs.checkReport e g.stageRepairs.violations) := h0.startAlone hq hs hm hg ho
  refine ⟨h, fun hv => ?_⟩
  rw [hv] at h
  refine h.answers ?_
  simp [Fabric.checkReport, firstViol, Fabric.stageRepairs_res]

/-- TURN: the set is sealed and its result awaited, or nothing is published (15 R338; log entry 60). -/
theorem turn_starts (ho : opcOf e.op = ocTurn) (hq : s.fab.fmu.chan.queue = []) :
    (∀ r, g.turnReason (fld e.op 39 0) = some r → gives .turn s (g.refuseOp e r)) ∧
    (g.turnReason (fld e.op 39 0) = none → answers .turn s fun h =>
      h.fmu.turn.sealed_ = true ∧ h.fmu.turn.m = BitVec.ofNat 40 (fld e.op 39 0) ∧
      h.fmu.turn.epoch = g.fmu.turn.epoch ∧ h.fmu.res.turn.valid = false ∧ h.fmu.res.turn.seq = g.fmu.res.turn.seq ∧
      h.fmu.res.turn.words = g.fmu.res.turn.words) := by
  have h0 : gives .turn s (s.fab.startAlone ocTurn _) := rfl
  have h := h0.startAlone hq hs hm hg ho
  refine ⟨fun r hr => ?refused, fun hr => ?accepted⟩
  case refused => simpa only [hr] using h
  case accepted =>
    simp only [hr] at h
    obtain ⟨hsealed, hinstant, hepoch, hres⟩ := g.seal_fmu e (fld e.op 39 0)
    refine h.answers ⟨hsealed, hinstant, hepoch, ?_⟩
    rw [hres]
    exact ⟨rfl, rfl, rfl⟩

/-- DRAIN: the epoch in force and a sealed turn refuse it; an epoch that is confirmed empty completes at once
(15 R345; log entries 60-62). -/
theorem drain_starts (ho : opcOf e.op = ocDrain) :
    let ep : BitVec 1 := BitVec.ofNat 1 (fld e.op 95 95)
    (ep = g.epoch → gives .drain s (g.refuseOp e 0x0A)) ∧
    (ep ≠ g.epoch → g.fmu.turn.sealed_ = true → gives .drain s (g.refuseOp e 0x0B)) ∧
    (ep ≠ g.epoch → g.fmu.turn.sealed_ = false → g.drained ep = false → answers .drain s fun h =>
      h.fmu.drain.epoch = some ep ∧ h.fmu.drain.left = max 1 (fld e.op 79 64) ∧ h.fmu.drain.sampled = none ∧
      h.fmu.res.drain.valid = false ∧ h.fmu.res.drain.seq = g.fmu.res.drain.seq) ∧
    (ep ≠ g.epoch → g.fmu.turn.sealed_ = false → g.drained ep = true → answers .drain s fun h =>
      h.fmu.res.drain.valid = false ∧ h.fmu.drain = g.fmu.drain) := by
  intro ep
  have h0 : gives .drain s (s.fab.startMgmt ocDrain _) := rfl
  have h := h0.startMgmt hs hm hg ho
  refine ⟨fun he => ?inForce, fun he ht => ?sealed, fun he ht hd => ?begins, fun he ht hd => ?empty⟩
  case inForce => rwa [if_pos he] at h
  case sealed => rwa [if_neg he, if_pos ht] at h
  all_goals
    rw [if_neg he, if_neg (Bool.eq_false_iff.mp ht)] at h
    dsimp only at h
    rw [Fabric.updRes_drained] at h
  case begins =>
    rw [if_neg (Bool.eq_false_iff.mp hd)] at h
    exact h.answers ⟨rfl, rfl, rfl, rfl, rfl⟩
  case empty =>
    rw [if_pos hd] at h
    refine h.answers ?_
    simp

end

/-- Settles O15, op by op: what the start of each makes of the fabric in which the op has begun. -/
theorem managementOpsStart : Obligations.ManagementOpsStart := by
  intro s e hs hm g
  exact ⟨stage_starts hs hm rfl, check_starts hs hm rfl, turn_starts hs hm rfl, drain_starts hs hm rfl⟩

end Sys2Proof.Machine
end

section
/-! SUPPORT. What an NI's injection queue gains when packets are enqueued, and the load path's two answers
(01 R24, R27; 06 R132). -/

namespace Sys2Proof.Machine

section
variable (f : Fabric) (p q : Nat) (o : OutPkt)

/-- A queued packet joins the end of its queue, stamped with the fc. -/
theorem Fabric.enqueue_injQ_self : (f.enqueue p q o).injQ p q = f.injQ p q ++ [{ o with at_ := f.time.fcc }] := by
  simp [Fabric.enqueue, Fabric.setInjQ, Fabric.injQ]

theorem Fabric.enqueue_core : ((f.enqueue p q o).ni p).core = (f.ni p).core := by
  simp [Fabric.enqueue, Fabric.setInjQ]

end

section
variable {α β : Type} (p q : Nat) (o : α → OutPkt)

theorem Fabric.forEach_enqueue_core (f : Fabric) (l : List α) :
    ((f.forEach l fun g x => g.enqueue p q (o x)).ni p).core = (f.ni p).core :=
  Fabric.forEach_keeps (fun g => (g.ni p).core) (fun g x => g.enqueue_core p q (o x)) f l

/-- Packets enqueued one after another stand behind the queue in their order, as far as their stamps are not
looked at. -/
theorem Fabric.forEach_enqueue_injQ (view : OutPkt → β) (hview : ∀ x t, view { x with at_ := t } = view x)
    (f : Fabric) (l : List α) :
    ((f.forEach l fun g x => g.enqueue p q (o x)).injQ p q).map view =
      (f.injQ p q).map view ++ l.map (fun x => view (o x)) := by
  induction l generalizing f with
  | nil => exact (List.append_nil _).symm
  | cons x l ih =>
    refine (ih (f.enqueue p q (o x))).trans ?_
    simp [Fabric.enqueue_injQ_self, hview]

end

/-- Settles O41: the first status found answers the engine; where none is, the parts are queued one by one. -/
theorem loadPathAccess : Obligations.LoadPathAccess := by
  intro s p e a n w hm hopen hkind hpow he hn1 hn
  have h0 : gives (.loadPathRequest p e a n w) s (s.fab.when _ _) := rfl
  rw [Fabric.when_of _ (by simp [hm, hopen, hkind, hpow, he, hn1, hn])] at h0
  dsimp only at h0 ⊢
  refine ⟨fun st hst => ?refused, fun hnone => ?queued⟩
  case refused =>
    rw [hst] at h0
    refine h0.answers ?_
    simp [Fabric.niErr, Fabric.injQ]
  case queued =>
    rw [hnone] at h0
    refine h0.answers ⟨_,
      { engine := e, tag := (s.fab.takeTag p).1, addr := a, bytes := n, write := w.isSome, need := (loadParts a n).length },
      rfl, ?loads, rfl, rfl, rfl, ?packets⟩
    case loads =>
      refine (congrArg CoreSide.loads (Fabric.forEach_enqueue_core ..)).trans ?_
      simp [Fabric.takeTag]
    case packets =>
      refine (Fabric.forEach_enqueue_injQ _ _ _ (fun o => (o.pkt.hdr, o.pkt.body)) (fun _ _ => rfl) ..).trans ?_
      simp [Fabric.takeTag, Fabric.injQ]

end Sys2Proof.Machine
end

section
/-! SUPPORT. The queue of commands (02 R54; log entries 1, 2, 4). -/

namespace Sys2Proof.Machine

/-- Every arm of `exec` is an effect on the fabric alone. -/
theorem exec_keeps_queue (c : Instr) (s : State) : ∃ g, exec c s = .next { s with fab := g } := by
  cases c <;> exact ⟨_, rfl⟩

theorem step_of_cons {c : Instr} {rest : List Instr} {s : State} (h : s.pending = c :: rest) :
    step s = exec c { s with pending := rest } := by
  simp [step, h]

theorem step_of_nil {s : State} (h : s.pending = []) :
    step s = .next { s with fab := s.fab.when s.fab.live Fabric.cycle } := by
  simp [step, h, tick]

/-- Settles O1: the queue's two cases, and what every arm keeps. -/
theorem stepRunsTheFrontCommand : Obligations.StepRunsTheFrontCommand := by
  refine ⟨fun c rest s h => step_of_cons h, fun s h hr => ?cycle, fun s h hr => ?held, fun c s => ?answer⟩
  case cycle => rw [step_of_nil h, Fabric.when_of _ (by simp [Fabric.live, hr])]
  case held => rw [step_of_nil h, Fabric.when_not _ (by simp [Fabric.live, hr])]
  case answer =>
    obtain ⟨g, hg⟩ := exec_keeps_queue c s
    exact ⟨g, hg, trivial⟩

end Sys2Proof.Machine
end

section
/-! SUPPORT. The counts of an instant (02 R38). -/

namespace Sys2Proof.Machine

/-- FCC is made of the milestone and the cycle within it. -/
theorem Fabric.fcc_eq (f : Fabric) : f.time.fcc = 2 ^ 20 * f.msc + f.kOf := (Nat.div_add_mod ..).symm

theorem Fabric.kOf_lt (f : Fabric) : f.kOf < 2 ^ 20 := Nat.mod_lt _ (by decide)

/-- The three fields of the word of a count: zeros, MSC and k. -/
theorem fccWord_fields (n : Nat) :
    (fccWord n).extractLsb' 60 4 = 0 ∧ (fccWord n).extractLsb' 20 40 = BitVec.ofNat 40 (n / 2 ^ 20) ∧
    (fccWord n).extractLsb' 0 20 = BitVec.ofNat 20 n := by
  refine ⟨?_, ?_, ?_⟩ <;> apply BitVec.eq_of_toNat_eq <;>
    simp [fccWord, BitVec.extractLsb'_toNat, Nat.shiftRight_eq_div_pow] <;> omega

/-- The next count: k goes on, or the milestone ends at k = 2^20 - 1. -/
theorem Fabric.kOf_msc_succ (f : Fabric) :
    let g := f.updTime fun t => { t with fcc := t.fcc + 1 }
    (f.kOf = 1048575 → g.kOf = 0 ∧ g.msc = f.msc + 1) ∧ (f.kOf < 1048575 → g.kOf = f.kOf + 1 ∧ g.msc = f.msc) := by
  simp only [Fabric.kOf, Fabric.msc, Fabric.updTime_time, msLen]
  omega

/-- Settles O52: the counts are a quotient and a remainder by 2^20, and the word is their digits. -/
theorem timeCounts : Obligations.TimeCounts :=
  ⟨fun f => ⟨f.fcc_eq, f.kOf_lt⟩, fccWord_fields, fun f => f.kOf_msc_succ.1, fun f => f.kOf_msc_succ.2⟩

end Sys2Proof.Machine
end

section
/-! SUPPORT. Count frames, ticks and the markers of the milestone trees (02 R46-R51; 17 R379). -/

namespace Sys2Proof.Machine

/-- A command that acts where a condition holds: what it does there. -/
theorem gives_when {c : Instr} {s : State} {b : Fabric → Bool} {g : Fabric → Fabric}
    (hc : exec c s = s.run fun f => f.when (b f) g) (hb : b s.fab = true) : gives c s (g s.fab) := by
  rw [gives, hc, State.run_eq, Fabric.when_of _ hb]

/-- A phase is in the window when it is at most the half-width away, which is 2 at least (02 R50). -/
theorem Time.inPhase_iff (t : Time) (phase : Int) :
    t.inPhase phase = true ↔ -(max 2 (t.phaseWin.toNat : Int)) ≤ phase ∧ phase ≤ max 2 (t.phaseWin.toNat : Int) := by
  have hw : (t.window.toNat : Int) = max 2 (t.phaseWin.toNat : Int) := Int.toNat_of_nonneg (by simp [Time.window])
  rw [Time.inPhase, decide_eq_true_eq, ← hw]
  omega

theorem Fabric.alignStart_not_waiting {f : Fabric} (h : f.taux.align.phase ≠ .waitTick) : f.alignStart = f := by
  unfold Fabric.alignStart
  split
  · rfl
  · split
    · exact absurd ‹_› h
    · rfl

section
variable {s : State} (hf : s.fab.live = true)
include hf

/-- A frame that is late or fails its check leaves the counts, and the frame kept before, as they are. -/
theorem countFrame_discarded (v : BitVec 48) (late : Bool)
    (h : late = true ∨ crc8 (v.extractLsb' 8 40) ≠ v.extractLsb' 0 8) :
    gives (.countFrame v late) s (((s.fab.updTime fun t => { t with extValid := false }).updAux fun a =>
      { a with align := { a.align with framesBad := a.align.framesBad + 1 } }).raiseFmu .mscFrame s.fab.msc) := by
  have hg := gives_when (c := .countFrame v late) (b := Fabric.live) rfl hf
  dsimp only at hg
  rwa [if_pos (by simpa using h)] at hg

/-- A frame that passes is kept; once the fabric is aligned its offset is kept, and raised where it is not 0. -/
theorem countFrame_kept (v : BitVec 48) (h : crc8 (v.extractLsb' 8 40) = v.extractLsb' 0 8) :
    let m := v.extractLsb' 8 40
    let o := offsetOf m.toNat (s.fab.msc + 1)
    let g := (s.fab.updTime fun t => { t with extValid := true, ext := m }).updAux fun a =>
      { a with frame := some m, align := { a.align with framesBad := 0 } }
    let g1 := g.updTime fun t => { t with offset := o }
    gives (.countFrame v false) s (if s.fab.time.aligned then
      if o == 0 then g1 else g1.raiseFmu .mscMismatch (signedBits 32 o) else g) := by
  have hg := gives_when (c := .countFrame v false) (b := Fabric.live) rfl hf
  dsimp only at hg ⊢
  rwa [if_neg (by simpa using h)] at hg

/-- A tick of an aligned fabric, inside the window and outside it. -/
theorem msTick_judged (phase : Int) (ha : s.fab.time.aligned = true) (hw : s.fab.taux.align.phase ≠ .waitTick) :
    let f := s.fab.updAux fun a => { a with frame := none }
    let e := clampAbs 32767 phase
    gives (.msTick phase) s (if s.fab.time.inPhase phase then
      (f.updTime fun t => { t with holdover := false, missRun := 0, phaseErr := 0 }).updAux fun a => { a with tickSeen := true }
      else (f.updTime fun t => { t with phaseErr := e }).raiseFmu .tickPhase (signedBits 16 e)) := by
  have hg := gives_when (c := .msTick phase) (b := Fabric.live) rfl hf
  dsimp only at hg ⊢
  rwa [Fabric.alignStart_not_waiting hw, ha] at hg

end

/-- Settles O25: each frame and each tick has one of two outcomes. -/
theorem framesAndTicks : Obligations.FramesAndTicks := by
  refine ⟨fun s v hf => ⟨fun hv => ?kept, fun late h => ?discarded⟩, fun s phase hf ha hw => ⟨fun hp => ?inside, fun hp => ?outside⟩,
    Time.inPhase_iff⟩
  case kept =>
    refine (countFrame_kept hf v hv).answers ?_
    cases ha : s.fab.time.aligned
    · exact ⟨rfl, rfl, rfl, rfl, rfl, rfl, rfl, rfl⟩
    · simp only [reduceIte]
      split <;> exact ⟨rfl, rfl, rfl, rfl, rfl, rfl, rfl, rfl⟩
  case discarded => exact (countFrame_discarded hf v late h).answers ⟨rfl, rfl, rfl, rfl, rfl⟩
  case inside =>
    have hg := msTick_judged hf phase ha hw
    rw [hp] at hg
    exact hg.answers ⟨rfl, rfl, rfl, rfl⟩
  case outside =>
    have hg := msTick_judged hf phase ha hw
    rw [hp] at hg
    exact hg.answers ⟨rfl, rfl, rfl⟩


section
variable {s : State} {d : Nat} (hf : s.fab.live = true) (ha : s.fab.time.aligned = true) (hd : d < nDies s.fab.variant)
include hf ha hd

/-- A slice for which a tree has been substituted keeps that tree. -/
theorem treeMarker_substituted (a b : Option Int) {r : Nat × Nat × Nat × Word}
    (hr : s.fab.fmu.spares.find? (fun r => r.1 == 6 && r.2.1 == d) = some r) :
    gives (.treeMarker d a b) s (s.fab.updDie d fun x => { x with treeB := bit r.2.2.2 0 }) := by
  have hg := gives_when (c := .treeMarker d a b) (s := s) (b := fun f => f.live && f.time.aligned && d < nDies f.variant)
    rfl (by simp [hf, ha, hd])
  dsimp only at hg
  rwa [hr] at hg

/-- Without a substitution: where the markers disagree the tree that is not lost is taken, and reported once;
otherwise tree A while its marker is in the window. -/
theorem treeMarker_compared (a b : Option Int) (hr : ∀ r ∈ s.fab.fmu.spares, ¬ (r.1 = 6 ∧ r.2.1 = d)) :
    let c := s.fab.time.compareTrees a b
    let f := if c.1 then s.fab.updDie d fun x => { x with treeB := !c.2 }
      else if a.any s.fab.time.inPhase then s.fab.updDie d fun x => { x with treeB := false } else s.fab
    gives (.treeMarker d a b) s (if c.1 && !(s.fab.die d).treeRaised then
      ((f.updDie d fun x => { x with treeRaised := true }).updTime fun t => { t with treeB := !c.2 }).raiseDie d .treeFail
        (d + 16 * b2n c.2) else f) := by
  have hnone : s.fab.fmu.spares.find? (fun r => r.1 == 6 && r.2.1 == d) = none := by
    simpa [List.find?_eq_none] using hr
  have hg := gives_when (c := .treeMarker d a b) (s := s) (b := fun f => f.live && f.time.aligned && d < nDies f.variant)
    rfl (by simp [hf, ha, hd])
  dsimp only at hg
  rw [hnone] at hg
  exact hg

/-- The tree that the slice uses then. -/
theorem treeMarker_treeB (a b : Option Int) (hr : ∀ r ∈ s.fab.fmu.spares, ¬ (r.1 = 6 ∧ r.2.1 = d)) :
    let c := s.fab.time.compareTrees a b
    answers (.treeMarker d a b) s fun h => (h.die d).treeB =
      if c.1 then !c.2 else if a.any s.fab.time.inPhase then false else (s.fab.die d).treeB := by
  intro c
  refine (treeMarker_compared hf ha hd a b hr).answers ?_
  have hraise (f : Fabric) (t : Bool) (info : Nat) : ((((f.updDie d fun x => { x with treeRaised := true }).updTime
      fun x => { x with treeB := t }).raiseDie d .treeFail info).die d).treeB = (f.die d).treeB := by
    simp [Fabric.raiseDie, Fabric.die]
  simp only [apply_ite (fun g : Fabric => (g.die d).treeB), hraise, ite_self, Fabric.updDie_die_self, c]

end

/-- Settles O26: the comparison of the markers, marker by marker (log entries 155, 156, 180). -/
theorem treeMarkerChoosesItsTree : Obligations.TreeMarkerChoosesItsTree := by
  refine ⟨fun s d hf ha hd hr => ?markers, fun s d a b r hf ha hd hr =>
    (treeMarker_substituted hf ha hd a b hr).answers ⟨by simp, rfl, rfl⟩, fun f d => rfl⟩
  intro win
  refine ⟨fun x y => ?both, fun x => treeMarker_treeB hf ha hd (some x) none hr,
    fun y => treeMarker_treeB hf ha hd none (some y) hr, treeMarker_compared hf ha hd none none hr⟩
  obtain ⟨g, hg, h⟩ := treeMarker_treeB hf ha hd (some x) (some y) hr
  refine ⟨g, hg, h.trans ?_⟩
  change (if (win x != win y || (!win x && x != y)) then !win x else if win x then false else _) = _
  cases win x <;> cases win y <;> simp

end Sys2Proof.Machine
end

section
/-! SUPPORT. Reads that capture, and the index of a window (02 R41; 07 R181; 14 R324; 19 R410; 20 R425, R437). -/

namespace Sys2Proof.Machine

/-! ## Addresses (20 R425) -/

theorem blockOf_ni {p off : Nat} (hp : p < 1024) (ho : off < 0x4000) :
    blockOf (0x400000 + p * 0x4000 + off) = some (.ni p, off) := by
  have hblock : (0x400000 + p * 0x4000 + off - 0x400000) / 0x4000 = p := by omega
  have hoff : (0x400000 + p * 0x4000 + off) % 0x4000 = off := by omega
  rw [blockOf, if_neg (by omega), if_neg (by omega), if_neg (by simp; omega), if_pos (by simp; omega), hblock, hoff]

theorem blockOf_slice {d off : Nat} (hd : d < 4) (ho : off < 0x10000) :
    blockOf (0x10000 + d * 0x10000 + off) = some (.slice d, off) := by
  have hblock : (0x10000 + d * 0x10000 + off - 0x10000) / 0x10000 = d := by omega
  have hoff : (0x10000 + d * 0x10000 + off) % 0x10000 = off := by omega
  rw [blockOf, if_neg (by omega), if_pos (by omega), hblock, hoff]

theorem blockOf_fmu {off : Nat} (ho : off < 0x10000) : blockOf off = some (.fmu, off) := if_pos ho

theorem nDies_le (v : Variant) : nDies v ≤ 4 := by cases v <;> decide

theorem nPorts_le (v : Variant) : nPorts v ≤ 1024 := by cases v <;> decide

/-- Register i of n that lie `step` apart, and none past the last. -/
theorem regIdx_mul {base step n i : Nat} (hs : 0 < step) (hi : i < n) : regIdx (base + step * i) base step n = some i := by
  simp [regIdx, Nat.mul_div_cancel_left i hs, hi]

theorem regIdx_past {off base step n : Nat} (hs : 0 < step) (h : base + step * n ≤ off) : regIdx off base step n = none := by
  have : n ≤ (off - base) / step := (Nat.le_div_iff_mul_le hs).2 (by rw [Nat.mul_comm]; omega)
  simp [regIdx, Nat.not_lt.2 this]

/-- No wide counter lies among the counter records. -/
theorem Ni.wideCtr_past (n : Ni) (cycles kind : Nat) {off : Nat} (h : 0x2000 ≤ off) : n.wideCtr cycles kind off = none := by
  have hcls : regIdx off 0x1000 8 24 = none := regIdx_past (by decide) (by omega)
  have hlat : regIdx off 0x1240 8 2 = none := regIdx_past (by decide) (by omega)
  have hatom : regIdx off 0x12C0 8 2 = none := regIdx_past (by decide) (by omega)
  unfold Ni.wideCtr
  rw [hcls, hlat, hatom]
  exact if_neg (by simp only [Bool.and_eq_true, decide_eq_true_eq]; omega)

/-- Which offsets hold a wide counter does not depend on the time. -/
theorem Ni.wideCtr_isSome (n : Ni) (c c' kind off : Nat) :
    (n.wideCtr c kind off).isSome = (n.wideCtr c' kind off).isSome := by
  unfold Ni.wideCtr
  split
  · rfl
  · split
    · rfl
    · rfl
    · simp only [apply_ite Option.isSome, Option.isSome_some]

theorem base_le_of_regIdx {off base step n i : Nat} (h : regIdx off base step n = some i) : base ≤ off := by
  unfold regIdx at h
  split at h
  next hc =>
    simp only [Bool.and_eq_true, decide_eq_true_eq] at hc
    obtain ⟨⟨hbase, -⟩, -⟩ := hc
    exact hbase
  next => cases h

/-! ## The reads -/

@[simp] theorem Fabric.busReply_die (f : Fabric) (w : Word) (e : Bool) (d : Nat) : (f.busReply w e).die d = f.die d := rfl

/-- A read, out of reset, of a register of a unit that is there. -/
theorem Fabric.busAccess_read {f : Fabric} {a off : Nat} {b : Block} (hf : f.live = true) (ha : a % 4 = 0)
    (hb : blockOf a = some (b, off)) (hp : f.present b = true) (ho : off ≠ 0x44) :
    f.busAccess a none = (f.capture b off).busReply (f.regWord b off) false := by
  simp [Fabric.busAccess, hf, ha, hb, hp, Fabric.readReg, ho]

/-- Such a read where a command names it. -/
theorem gives_read {c : Instr} {s : State} {a off : Nat} {b : Block} {k : Fabric → Bool}
    (hc : exec c s = s.run fun f => f.when (k f) fun f => f.busAccess a none) (hk : k s.fab = true)
    (hf : s.fab.live = true) (ha : a % 4 = 0) (hb : blockOf a = some (b, off)) (hp : s.fab.present b = true)
    (ho : off ≠ 0x44) : gives c s ((s.fab.capture b off).busReply (s.fab.regWord b off) false) :=
  Fabric.busAccess_read hf ha hb hp ho ▸ gives_when hc hk

/-- A read of the data register moves the index on by one, whatever it returns (20 R437). -/
theorem Fabric.readWindow_sel (f : Fabric) (b : Block) (w : Window) :
    (f.readWindow b w).2.sel = withIndex w.sel (fld w.sel 23 0 + 1) := by
  unfold Fabric.readWindow
  dsimp only
  split
  · rfl
  · split
    · rfl
    · split <;> rfl

/-- The upper half of the word of a count, which the one fc of crawl service does not reach (02 R38, R39). -/
theorem hiWord_fccWord (n : Nat) {u : Nat} (hu : u = 1 ∨ u = 2) :
    hiWord (fccWord n).toNat = (fccWord (n / u * u)).extractLsb' 32 32 := by
  have hhalf : n % 2 ^ 60 / 2 ^ 32 = n / u * u % 2 ^ 60 / 2 ^ 32 := by
    rcases hu with rfl | rfl <;> omega
  apply BitVec.eq_of_toNat_eq
  simp only [hiWord, fccWord, BitVec.extractLsb'_toNat, BitVec.toNat_ofNat, Nat.shiftRight_eq_div_pow]
  omega

theorem Fabric.unit_eq (f : Fabric) : f.unit = 1 ∨ f.unit = 2 := by
  unfold Fabric.unit
  split
  · exact .inl rfl
  · exact .inr rfl

theorem Fabric.counted_live {f : Fabric} (h : f.frz = none) : f.counted = f := by
  simp [Fabric.counted, h]

/-! ## What each read captures -/

section
variable {f : Fabric} {p off i : Nat}

/-- A completion counter record is captured whole (07 R181). -/
theorem Fabric.capture_record (hi : regIdx off 0x2000 32 256 = some i) (hk : f.kind p = 1) (hp : f.powered p = true) :
    f.capture (.ni p) off = f.updNi p fun n => { n with tsq := { n.tsq with
      ctrHold := CtrRec.words ((n.tsq.ctrs.get i {}).seen f.time.fcc), ctrHoldAt := some i } } := by
  simp [Fabric.capture, hp, hk, Ni.wideCtr_past _ _ _ (base_le_of_regIdx hi), hi]

theorem Fabric.capture_fmuRecord (hi : regIdx off 0x2000 32 64 = some i) :
    f.capture .fmu off = f.updFmu fun m =>
      { m with ctrHold := CtrRec.words ((m.ctrs.get i {}).seen f.time.fcc), ctrHoldAt := some i } := by
  have hoff := base_le_of_regIdx hi
  have htime : off ≠ 0x300 := by omega
  have hdsr : off ≠ 0x480 := by omega
  simp [Fabric.capture, htime, hdsr, hi]

/-- A `_LO` read holds the upper half of its counter (19 R410). -/
theorem Fabric.capture_wide {c : Nat} (hp : f.powered p = true) (hz : f.frz = none)
    (hc : (f.ni p).wideCtr f.time.cycles (f.kind p) off = some c) :
    f.capture (.ni p) off = f.updNi p fun n => { n with obs := { n.obs with loHold := n.obs.loHold.put off (hiWord c) } } := by
  simp [Fabric.capture, hp, Fabric.counted_live hz, hc]

/-- `FMU_DSR_0` captures the whole record, whatever word the read returns (14 R324). -/
theorem Fabric.capture_dsr (f : Fabric) (w : Word) :
    let h := (f.capture .fmu 0x480).busReply w false
    h.fmu.dig.dsrHold = (List.range 16).map f.dsrWord ∧ h.bus.err = false ∧ h.nis = f.nis ∧ h.stops = f.stops ∧
    h.fmu.res = f.fmu.res := by
  have hc : f.capture .fmu 0x480 =
      f.updFmu fun m => { m with dig := { m.dig with dsrHold := (List.range 16).map f.dsrWord } } := rfl
  simp [hc]

theorem Fabric.capture_dieFcc (d : Nat) :
    f.capture (.slice d) 0x20 = f.updDie d fun x => { x with fccHold := hiWord (fccWord (f.dieFcc d)).toNat } := rfl

end

section
variable {s : State} {a p off i : Nat} (hf : s.fab.live = true)
include hf

/-- `FMU_TIME_FCC_LO` and the hold behind it are the two halves of one count (02 R41). -/
theorem fccLoRead_pair : answers .fccLoRead s fun h =>
    h.time.fccHold ++ h.bus.rdata = fccWord s.fab.time.fcc ∧ h.bus.err = false ∧
    h.time = { s.fab.time with fccHold := h.time.fccHold } ∧ h.nis = s.fab.nis ∧ h.fmu = s.fab.fmu := by
  have hg : gives .fccLoRead s s.fab.fccLoRead := by
    change execFccLoRead s = _
    simp [execFccLoRead, hf]
  refine hg.answers ⟨?_, rfl, rfl, rfl, rfl⟩
  change ((fccWord _).extractLsb' 32 32 ++ (fccWord _).extractLsb' 0 32 : BitVec 64) = _
  rw [BitVec.extractLsb'_append_extractLsb'_eq_extractLsb' (by rfl)]
  exact BitVec.extractLsb'_eq_self

theorem gives_dsrRead : gives .dsrRead s ((s.fab.capture .fmu 0x480).busReply (s.fab.regWord .fmu 0x480) false) := by
  have hg : gives .dsrRead s (s.fab.busAccess 0x480 none) := rfl
  rwa [Fabric.busAccess_read hf rfl (blockOf_fmu (by decide)) rfl (by decide)] at hg

theorem counterRecordRead_ni (ha : a % 4 = 0) (hb : blockOf a = some (.ni p, off)) (hi : regIdx off 0x2000 32 256 = some i)
    (hp : p < nPorts s.fab.variant) (hk : s.fab.kind p = 1) (hw : s.fab.powered p = true) :
    answers (.counterRecordRead a) s fun h =>
      (h.ni p).tsq.ctrHold = CtrRec.words (((s.fab.ni p).tsq.ctrs.get i {}).seen s.fab.time.fcc) ∧
      (h.ni p).tsq.ctrHoldAt = some i ∧ (h.ni p).tsq.ctrs = (s.fab.ni p).tsq.ctrs ∧ h.bus.err = false := by
  have hoff := base_le_of_regIdx hi
  have hg := gives_read (c := .counterRecordRead a) (k := fun _ => isRecord a) rfl (by simp [isRecord, hb, hi]) hf ha hb
    (by simp [Fabric.present, hp, hk]) (by omega)
  rw [Fabric.capture_record hi hk hw] at hg
  exact hg.answers (by simp)

theorem counterRecordRead_fmu (ha : a % 4 = 0) (hb : blockOf a = some (.fmu, off)) (hi : regIdx off 0x2000 32 64 = some i) :
    answers (.counterRecordRead a) s fun h =>
      h.fmu.ctrHold = CtrRec.words ((s.fab.fmu.ctrs.get i {}).seen s.fab.time.fcc) ∧ h.fmu.ctrHoldAt = some i ∧
      h.bus.err = false := by
  have hoff := base_le_of_regIdx hi
  have hg := gives_read (c := .counterRecordRead a) (k := fun _ => isRecord a) rfl (by simp [isRecord, hb, hi]) hf ha hb
    rfl (by omega)
  rw [Fabric.capture_fmuRecord hi] at hg
  exact hg.answers ⟨rfl, rfl, rfl⟩

theorem counterLoRead_slice {d : Nat} (ha : a % 4 = 0) (hb : blockOf a = some (.slice d, 0x20)) (hd : d < nDies s.fab.variant) :
    answers (.counterLoRead a) s fun h =>
      (h.die d).fccHold = (fccWord (s.fab.fccOf d)).extractLsb' 32 32 ∧ h.bus.err = false := by
  have hg := gives_read (c := .counterLoRead a) (k := fun f => f.isLo a) rfl (by simp [Fabric.isLo, hb]) hf ha hb
    (by simp [Fabric.present, hd]) (by decide)
  rw [Fabric.capture_dieFcc] at hg
  exact hg.answers ⟨by simp [Fabric.fccOf, hiWord_fccWord _ s.fab.unit_eq], rfl⟩

theorem counterLoRead_ni {c : Nat} (ha : a % 4 = 0) (hb : blockOf a = some (.ni p, off)) (hs : off ≠ 0x44)
    (hp : p < nPorts s.fab.variant) (hk : s.fab.kind p ≠ 0) (hw : s.fab.powered p = true) (hz : s.fab.frz = none)
    (hc : (s.fab.ni p).wideCtr s.fab.time.cycles (s.fab.kind p) off = some c) :
    answers (.counterLoRead a) s fun h =>
      (h.ni p).obs.loHold.get off 0 = BitVec.ofNat 32 (c / 2 ^ 32) ∧ h.bus.err = false := by
  have hlo : ((s.fab.ni p).wideCtr 0 (s.fab.kind p) off).isSome = true := by
    rw [Ni.wideCtr_isSome _ _ s.fab.time.cycles, hc, Option.isSome_some]
  have hg := gives_read (c := .counterLoRead a) (k := fun f => f.isLo a) rfl (by simp only [Fabric.isLo, hb, hlo]) hf ha hb
    (by simp [Fabric.present, hp, hk]) hs
  rw [Fabric.capture_wide hw hz hc] at hg
  exact hg.answers (by simp [hiWord])

theorem tblDataRead_fmu : answers (.tblDataAccess .fmu none) s fun h =>
    h.fmu.win.sel = withIndex s.fab.fmu.win.sel (fld s.fab.fmu.win.sel 23 0 + 1) ∧ h.bus.err = false ∧
    h.nis = s.fab.nis ∧ h.stops = s.fab.stops := by
  have hg := gives_when (c := .tblDataAccess .fmu none) (s := s) (b := fun _ => mappedUnit .fmu) rfl rfl
  have haccess : s.fab.busAccess (blockBase .fmu + 0x44) none = s.fab.readReg .fmu 0x44 := by
    simp [Fabric.busAccess, hf, blockBase, blockOf_fmu, Fabric.present]
  rw [haccess] at hg
  exact hg.answers ⟨Fabric.readWindow_sel .., rfl, rfl, rfl⟩

theorem tblDataWrite_fmu (w : Word) : answers (.tblDataAccess .fmu (some w)) s fun h =>
    h.fmu.win.sel = withIndex s.fab.fmu.win.sel (fld s.fab.fmu.win.sel 23 0 + 1) ∧ h.bus.err = false := by
  have hg := gives_when (c := .tblDataAccess .fmu (some w)) (s := s) (b := fun _ => mappedUnit .fmu) rfl rfl
  rw [Fabric.busAccess_write w hf rfl rfl rfl] at hg
  exact hg.answers ⟨rfl, rfl⟩

end

/-- Settles O33: each read's address is looked up, and its unit's rule of capture is applied. -/
theorem capturingReads : Obligations.CapturingReads := by
  intro s hf
  refine ⟨fccLoRead_pair hf, (gives_dsrRead hf).answers (Fabric.capture_dsr ..), fun p i hp hi hk hw => ?record,
    fun i hi => counterRecordRead_fmu hf (by omega) (blockOf_fmu (by omega)) (regIdx_mul (by decide) hi),
    fun d hd => counterLoRead_slice hf (by omega) (blockOf_slice (Nat.lt_of_lt_of_le hd (nDies_le _)) (by decide)) hd,
    fun p off c hp ho ha hs hk hw hz hc => ?wide, tblDataWrite_fmu hf, tblDataRead_fmu hf⟩
  case record =>
    have hb : blockOf (0x400000 + p * 0x4000 + 0x2000 + 32 * i) = some (.ni p, 0x2000 + 32 * i) := by
      rw [Nat.add_assoc (0x400000 + p * 0x4000)]
      exact blockOf_ni (Nat.lt_of_lt_of_le hp (nPorts_le _)) (by omega)
    exact counterRecordRead_ni hf (by omega) hb (regIdx_mul (by decide) hi) hp hk hw
  case wide => exact counterLoRead_ni hf (by omega) (blockOf_ni (Nat.lt_of_lt_of_le hp (nPorts_le _)) ho) hs hp hk hw hz hc

end Sys2Proof.Machine
end

section
/-! SUPPORT. What time leaves alone as it reaches an instant (log entry 9). -/

namespace Sys2Proof.Machine

/-- The fabric but for its NIs, its stops and the counts that run. -/
def Fabric.offPlane (f : Fabric) : Fabric :=
  { f with nis := [], stops := [], time := { f.time with fcc := 0, cycles := 0 } }

section
variable {f g : Fabric} (h : f.offPlane = g.offPlane)
include h
theorem Fabric.boot_of_offPlane : f.boot = g.boot := (congrArg Fabric.boot h :)
theorem Fabric.taux_of_offPlane : f.taux = g.taux := (congrArg Fabric.taux h :)
theorem Fabric.fmu_of_offPlane : f.fmu = g.fmu := (congrArg Fabric.fmu h :)
theorem Fabric.skew_of_offPlane : f.time.skew = g.time.skew := (congrArg (·.time.skew) h :)
end

section
variable (f : Fabric) (t : Nat)

theorem Fabric.pass_offPlane (n : Nat) : (f.pass n).offPlane = f.offPlane := by
  unfold Fabric.pass
  split
  · rfl
  · extract_lets ports f1
    have h1 : f1.offPlane = f.offPlane := Fabric.forEach_keeps Fabric.offPlane (by intros; rfl) _ ports
    exact (Fabric.forEach_keeps Fabric.offPlane (by intros; rfl) f1 _).trans h1

theorem Fabric.reach_offPlane : (f.reach t).offPlane = f.offPlane := by
  unfold Fabric.reach
  dsimp only
  split
  · rfl
  · exact f.pass_offPlane _

theorem Fabric.reachDue_offPlane : (f.reachDue t).offPlane = f.offPlane := by
  unfold Fabric.reachDue
  split
  · exact f.reach_offPlane _
  · rfl

@[simp] theorem Fabric.reach_fmu : (f.reach t).fmu = f.fmu := Fabric.fmu_of_offPlane (f.reach_offPlane t)
@[simp] theorem Fabric.reachDue_boot : (f.reachDue t).boot = f.boot := Fabric.boot_of_offPlane (f.reachDue_offPlane t)
@[simp] theorem Fabric.reachDue_taux : (f.reachDue t).taux = f.taux := Fabric.taux_of_offPlane (f.reachDue_offPlane t)
@[simp] theorem Fabric.reachDue_skew : (f.reachDue t).time.skew = f.time.skew :=
  Fabric.skew_of_offPlane (f.reachDue_offPlane t)

theorem Fabric.le_fcc_reach : t ≤ (f.reach t).time.fcc := by
  have hslot : t ≤ f.slotOf t := by
    unfold Fabric.slotOf
    split <;> omega
  unfold Fabric.reach
  dsimp only
  split
  next h => exact hslot.trans h
  next => exact hslot

end

end Sys2Proof.Machine
end

section
/-! SUPPORT. The skew that four exchanges give (02 R42; log entry 27). -/

namespace Sys2Proof.Machine

/-- The greatest magnitude is the initial one or that of a listed value. -/
theorem foldl_max_natAbs (ts : List Int) (m : Nat) :
    ts.foldl (fun m x => max m x.natAbs) m = m ∨ ∃ x ∈ ts, x.natAbs = ts.foldl (fun m x => max m x.natAbs) m := by
  induction ts generalizing m with
  | nil => exact .inl rfl
  | cons x ts ih =>
    rw [List.foldl_cons]
    obtain h | ⟨y, hy, h⟩ := ih (max m x.natAbs)
    · rw [h]
      rcases Nat.le_total x.natAbs m with hx | hx
      · exact .inl (Nat.max_eq_left hx)
      · exact .inr ⟨x, List.mem_cons_self, (Nat.max_eq_right hx).symm⟩
    · exact .inr ⟨y, List.mem_cons_of_mem _ hy, h⟩

theorem thetaSkew_natAbs (ts : List Int) (neg : Bool) : (thetaSkew ts neg).natAbs = thetaMax ts := by
  unfold thetaSkew
  dsimp only
  split
  · split <;> simp
  · split <;> simp

/-- The skew is one of the θ values, unless they are all 0. -/
theorem thetaSkew_mem {ts : List Int} (neg : Bool) (h : thetaMax ts ≠ 0) : thetaSkew ts neg ∈ ts := by
  obtain h0 | ⟨x, hx, hm⟩ := foldl_max_natAbs ts 0
  · exact absurd h0 h
  have hmem : (thetaMax ts : Int) ∈ ts ∨ -(thetaMax ts : Int) ∈ ts := by
    rcases Int.natAbs_eq x with hx' | hx'
    · exact .inl (by rw [thetaMax, ← hm, ← hx']; exact hx)
    · exact .inr (by rw [thetaMax, ← hm, ← hx']; exact hx)
  unfold thetaSkew
  simp only [Bool.and_eq_true, List.contains_iff_mem]
  split
  next hb => split; exacts [hb.2, hb.1]
  next =>
    split
    next hpos => exact hpos
    next hpos => exact hmem.resolve_left hpos

end Sys2Proof.Machine
end

section
/-! SUPPORT. The steps of the alignment of time (02 R42-R45, R50; 18 R403). -/

namespace Sys2Proof.Machine

section
variable (f : Fabric)

theorem Fabric.alignDone_time : f.alignDone.time = { f.time with aligned := true } := by
  simp only [Fabric.alignDone, apply_ite Fabric.time]
  exact ite_self _

/-- The end of the alignment publishes one attempt for D0 (log entry 158). -/
theorem Fabric.alignDone_taux : f.alignDone.taux = { f.taux with
    align := { f.taux.align with phase := .done }
    skews := f.taux.skews.upd 0 {} fun r => { valid := true, seq := r.seq + 1, attempts := 1, skew := 0, rtt := 0 } } := by
  simp only [Fabric.alignDone, apply_ite Fabric.taux]
  exact ite_self _

/-- The die that aligns next, or the end of the alignment. -/
theorem Fabric.alignDie_next {d : Nat} (h : d < nDies f.variant) : f.alignDie d = f.updAux fun a => { a with align :=
    { a.align with phase := .echo d, attempts := 1, treeB := f.time.treeForceB, thetas := [] } } := if_pos h
theorem Fabric.alignDie_last {d : Nat} (h : nDies f.variant ≤ d) : f.alignDie d = f.alignDone := if_neg (Nat.not_lt.2 h)

/-- The next step changes no skew, and no skew register but D0's. -/
theorem Fabric.alignDie_skew (d : Nat) : (f.alignDie d).time.skew = f.time.skew := by
  rcases Nat.lt_or_ge d (nDies f.variant) with h | h
  · rw [f.alignDie_next h]; rfl
  · rw [f.alignDie_last h, f.alignDone_time]
theorem Fabric.alignDie_skews (d : Nat) {e : Nat} (he : e ≠ 0) :
    (f.alignDie d).taux.skews.get e {} = f.taux.skews.get e {} := by
  rcases Nat.lt_or_ge d (nDies f.variant) with h | h
  · rw [f.alignDie_next h]; rfl
  · rw [f.alignDie_last h, f.alignDone_taux]
    simp [NMap.get_upd_ne, he]

/-- A die that fails stops the alignment, and bring-up where it is at step 4 (02 R45; 18 R403). -/
theorem Fabric.alignFail_idle (d attempts reason info : Nat) :
    (f.alignFail d attempts reason info).taux.align.phase = .idle := by
  simp only [Fabric.alignFail, apply_ite Fabric.taux]
  exact congrArg (fun a : TimeAux => a.align.phase) (ite_self _)
theorem Fabric.alignFail_boot (d attempts reason info : Nat) (h : f.boot.latch = 4) :
    (f.alignFail d attempts reason info).boot = { f.boot with
      fail := true, reason := BitVec.ofNat 8 reason, die := BitVec.ofNat 2 d, info := BitVec.ofNat 16 info } :=
  congrArg Fabric.boot (if_pos (by simp [Fabric.raiseFmu, h]))

end

/-! ## What each command does -/

section
variable {s : State} {d : Nat} (hf : s.fab.live = true)
include hf

/-- The first labelled tick loads D0 with the frame's count and begins with die 1. -/
theorem gives_alignStart {v : BitVec 40} (hb : s.fab.boot.fail = false) (hp : s.fab.taux.align.phase = .waitTick)
    (hv : s.fab.taux.frame = some v) :
    gives .alignStart s (((s.fab.updTime fun t =>
      { t with fcc := v.toNat * msLen, booked := v.toNat, offset := 0 }).updAux fun a => { a with frame := none }).alignDie 1) := by
  have hg := gives_when (c := .alignStart) (s := s) (b := Fabric.live) rfl hf
  rw [Fabric.alignStart, hb, hp, hv] at hg
  exact hg

theorem gives_alignEcho {a b c : Nat} (hp : s.fab.taux.align.phase = .echo d) (hab : a ≤ b) (hn : b - a ≤ 4096) (hbc : b ≤ c) :
    gives (.alignEcho d a b c) s (((s.fab.updAux fun x => { x with align := { x.align with
      phase := .exchange d, rtt := b - a, thetas := [], load := c + (b - a) / 2 } }).updTime
        fun t => { t with skew := t.skew.put d 0 }).reachDue c) :=
  gives_when (c := .alignEcho d a b c)
    (b := fun f => f.live && f.taux.align.phase == .echo d && a ≤ b && b - a ≤ 4096 && b ≤ c) rfl
    (by simp [hf, hp, hab, hn, hbc])

/-- An echo that is lost is tried again on tree B; on tree B the die fails. -/
theorem gives_alignEchoTimeout (hp : s.fab.taux.align.phase = .echo d) :
    gives (.alignEchoTimeout d) s (if s.fab.taux.align.treeB then s.fab.alignFail d s.fab.taux.align.attempts 0x05 0
      else s.fab.updAux fun x => { x with align := { x.align with treeB := true } }) :=
  gives_when (c := .alignEchoTimeout d) (s := s) (b := fun f => f.live && f.taux.align.phase == .echo d) rfl (by simp [hf, hp])

/-- A fourth exchange gives the skew, another attempt, or a failure, once time has reached its last stamp
(02 R42 steps 5 and 6, R45). -/
theorem gives_timestampExchange {t1 t2 t3 t4 : Int} {ts : List Int} (hp : s.fab.taux.align.phase = .exchange d)
    (hts : s.fab.taux.align.thetas ++ [theta t1 t2 t3 t4] = ts) :
    ∃ (f : Fabric) (neg : Bool) (k : Int), f.taux = s.fab.taux ∧ f.boot = s.fab.boot ∧ k = thetaSkew ts neg ∧
    gives (.timestampExchange d t1 t2 t3 t4) s (
      if ts.length < 4 then f.updAux fun x => { x with align := { x.align with thetas := ts } }
      else if thetaMax ts ≤ 2 then
        ((f.draw.updTime fun t => { t with skew := t.skew.put d k }).publishSkew d f.taux.align.attempts k
          f.taux.align.rtt).alignDie (d + 1)
      else if f.taux.align.attempts < 3 then
        (f.draw.updTime fun t => { t with skew := t.skew.put d (k - thetaMedian ts) }).updAux
          fun x => { x with align := { x.align with attempts := f.taux.align.attempts + 1, thetas := [] } }
      else f.alignFail d 3 0x03 3) := by
  have hg := gives_when (c := .timestampExchange d t1 t2 t3 t4) (s := s)
    (b := fun f => f.live && f.taux.align.phase == .exchange d) rfl (by simp [hf, hp])
  have htaux := s.fab.reachDue_taux t4.toNat
  have hts' : (s.fab.reachDue t4.toNat).taux.align.thetas ++ [theta t1 t2 t3 t4] = ts := by rw [htaux, hts]
  dsimp only at hg
  rw [hts'] at hg
  exact ⟨_, _, _, htaux, s.fab.reachDue_boot t4.toNat, rfl, hg⟩

/-- No frame within the time: bring-up stops at step 4 with reason 0x02 (18 R403). -/
theorem gives_alignFrameTimeout (hl : s.fab.boot.latch = 4) (hb : s.fab.boot.fail = false)
    (hp : s.fab.taux.align.phase = .waitTick) :
    gives .alignFrameTimeout s (s.fab.bootStop 0x02 0 s.fab.taux.align.framesBad) :=
  gives_when (c := .alignFrameTimeout)
    (b := fun f => f.live && f.boot.latch == 4 && !f.boot.fail && f.taux.align.phase == .waitTick) rfl (by simp [hf, hl, hb, hp])

end

/-- A write of `REALIGN` begins anew in a stopped package, and is refused while a turn is sealed (02 R50). -/
theorem Fabric.realign_stopped {f : Fabric} (ht : f.fmu.turn.sealed_ = false) (hs : f.fmu.stop.stopped = true) :
    f.realign = ((f.updTime fun t => { t with aligned := false }).updFmu fun m =>
      { m with dig := { m.dig with dsrValid := false } }).updAux
        fun a => { a with align := { was := if f.time.aligned then f.time.skew else a.align.was } } :=
  if_pos (by simp [ht, hs])
theorem Fabric.realign_sealed {f : Fabric} (ht : f.fmu.turn.sealed_ = true) : f.realign = f.raiseFmu .timeRefused f.msc :=
  if_neg (by simp [ht])

/-! ## What an exchange leaves -/

section
variable {s : State} {d : Nat} {t1 t2 t3 t4 : Int} {ts : List Int} (hf : s.fab.live = true)
  (hp : s.fab.taux.align.phase = .exchange d) (hts : s.fab.taux.align.thetas ++ [theta t1 t2 t3 t4] = ts)
include hf hp hts

theorem timestampExchange_goesOn (hn : ts.length < 4) : answers (.timestampExchange d t1 t2 t3 t4) s fun h =>
    h.taux.align.thetas = ts ∧ h.taux.align.phase = .exchange d := by
  obtain ⟨f, neg, k, htaux, hboot, rfl, hg⟩ := gives_timestampExchange hf hp hts
  rw [if_pos hn] at hg
  exact hg.answers (by simp [htaux, hp])

theorem timestampExchange_again (hn : 4 ≤ ts.length) (hm : 2 < thetaMax ts) (ha : s.fab.taux.align.attempts < 3) :
    answers (.timestampExchange d t1 t2 t3 t4) s fun h =>
      h.taux.align.thetas = [] ∧ h.taux.align.attempts = s.fab.taux.align.attempts + 1 ∧ h.taux.align.phase = .exchange d ∧
      ∃ k : Int, h.time.skew.get d 0 = k - thetaMedian ts ∧ k.natAbs = thetaMax ts ∧ k ∈ ts := by
  obtain ⟨f, neg, k, htaux, hboot, rfl, hg⟩ := gives_timestampExchange hf hp hts
  rw [if_neg (Nat.not_lt.2 hn), if_neg (Nat.not_le.2 hm), if_pos (htaux ▸ ha)] at hg
  exact hg.answers ⟨by simp, by simp [htaux], by simp [htaux, hp], thetaSkew ts neg, by simp, thetaSkew_natAbs .., thetaSkew_mem neg (by omega)⟩

theorem timestampExchange_fails (hn : 4 ≤ ts.length) (hm : 2 < thetaMax ts) (ha : 3 ≤ s.fab.taux.align.attempts) :
    answers (.timestampExchange d t1 t2 t3 t4) s fun h =>
      h.taux.align.phase = .idle ∧ (s.fab.boot.latch = 4 → h.boot.fail = true ∧ h.boot.reason = 0x03) := by
  obtain ⟨f, neg, k, htaux, hboot, rfl, hg⟩ := gives_timestampExchange hf hp hts
  rw [if_neg (Nat.not_lt.2 hn), if_neg (Nat.not_le.2 hm), if_neg (Nat.not_lt.2 (htaux ▸ ha))] at hg
  refine hg.answers ⟨Fabric.alignFail_idle .., fun hl => ?_⟩
  rw [Fabric.alignFail_boot _ _ _ _ _ (hboot ▸ hl)]
  exact ⟨rfl, rfl⟩

theorem timestampExchange_publishes (hn : 4 ≤ ts.length) (hm : thetaMax ts ≤ 2) (hd : d ≠ 0) :
    answers (.timestampExchange d t1 t2 t3 t4) s fun h =>
      ∃ k : Int, h.time.skew.get d 0 = k ∧ k.natAbs = thetaMax ts ∧ (k ∈ ts ∨ thetaMax ts = 0) ∧
        (h.taux.skews.get d {}).valid = true ∧ (h.taux.skews.get d {}).seq = (s.fab.taux.skews.get d {}).seq + 1 ∧
        (h.taux.skews.get d {}).rtt = BitVec.ofNat 16 s.fab.taux.align.rtt := by
  obtain ⟨f, neg, k, htaux, hboot, rfl, hg⟩ := gives_timestampExchange hf hp hts
  rw [if_neg (Nat.not_lt.2 hn), if_pos hm] at hg
  refine hg.answers ⟨thetaSkew ts neg, ?skew, thetaSkew_natAbs .., ?listed, ?register⟩
  case skew => simp [Fabric.alignDie_skew, Fabric.publishSkew]
  case listed => exact (Decidable.em _).symm.imp_left (thetaSkew_mem neg)
  case register =>
    rw [Fabric.alignDie_skews _ _ hd]
    simp [Fabric.publishSkew, htaux]

end

/-- Settles O27: each command of the alignment does one step; the θ of greatest magnitude is the skew. -/
theorem alignmentSteps : Obligations.AlignmentSteps := by
  refine ⟨fun s v hf hb hp hv => ?start, fun s d a b c hf hp hab hn hbc => ?echo, fun s d hf hp => ⟨fun ht => ?retry, fun ht => ?lost⟩,
    fun s d t1 t2 t3 t4 hf hp => ?exchange, fun s hf hl hb hp => ?frame, fun s hf => ⟨fun ht hs => ?realign, fun ht => ?refused⟩⟩
  case start =>
    have hg := gives_alignStart hf hb hp hv
    rcases Nat.lt_or_ge 1 (nDies s.fab.variant) with h | h
    · rw [Fabric.alignDie_next _ (by exact h)] at hg
      exact hg.answers ⟨rfl, rfl, rfl, rfl, fun _ => ⟨rfl, rfl⟩, fun h' => absurd h (Nat.not_lt.2 h')⟩
    · rw [Fabric.alignDie_last _ (by exact h)] at hg
      refine hg.answers ?_
      rw [Fabric.alignDone_time, Fabric.alignDone_taux]
      exact ⟨rfl, rfl, rfl, rfl, fun h' => absurd h' (Nat.not_lt.2 h), fun _ => ⟨rfl, rfl⟩⟩
  case echo => exact (gives_alignEcho hf hp hab hn hbc).answers (by simp)
  case retry =>
    have hg := gives_alignEchoTimeout hf hp
    rw [ht] at hg
    exact hg.answers ⟨rfl, hp⟩
  case lost =>
    have hg := gives_alignEchoTimeout hf hp
    rw [ht, if_pos rfl] at hg
    refine hg.answers ⟨Fabric.alignFail_idle .., fun hl => ?_⟩
    rw [Fabric.alignFail_boot _ _ _ _ _ hl]
    exact ⟨rfl, rfl, rfl⟩
  case exchange =>
    exact ⟨timestampExchange_goesOn hf hp rfl, timestampExchange_again hf hp rfl, timestampExchange_fails hf hp rfl,
      timestampExchange_publishes hf hp rfl⟩
  case frame => exact (gives_alignFrameTimeout hf hl hb hp).answers ⟨rfl, rfl, hl, rfl⟩
  case realign =>
    have hg : gives .realign s _ := gives_onBus Fabric.realign rfl hf
    rw [Fabric.realign_stopped ht hs] at hg
    exact hg.answers ⟨rfl, rfl, rfl, rfl, rfl, rfl⟩
  case refused =>
    have hg : gives .realign s _ := gives_onBus Fabric.realign rfl hf
    rw [Fabric.realign_sealed ht] at hg
    exact hg.answers ⟨rfl, rfl, rfl⟩

end Sys2Proof.Machine
end

section
/-! SUPPORT. What the completion of an op of the FMU's stream leaves outside the FMU (07 R170). -/

namespace Sys2Proof.Machine

/-- The fabric but for its FMU. -/
def Fabric.offFmu (f : Fabric) : Fabric := { f with fmu := {} }

section
variable (f : Fabric) (eid : Nat)

@[simp] theorem Fabric.updChan_fmu_offFmu (g : Chan → Chan) : (f.updChan .fmu g).offFmu = f.offFmu := rfl
@[simp] theorem Fabric.updCtr_fmu_offFmu (n : Nat) (k : Counter → Counter) : (f.updCtr .fmu n k).offFmu = f.offFmu := rfl

@[simp] theorem Fabric.passOn_fmu_offFmu (op : Op) : (f.passOn .fmu op).offFmu = f.offFmu := by
  rcases f.passOn_eq .fmu op with h | h <;> simp [h]

theorem Fabric.retire_fmu_offFmu (e : QEntry) (st : Status) (info : BitVec 48) :
    (f.retire .fmu e st info).offFmu = f.offFmu := by
  have h : (if e.issued then f else f.passOn .fmu e.op).offFmu = f.offFmu := by split <;> simp
  exact h

theorem Fabric.settle_fmu_offFmu : (f.settle .fmu).offFmu = f.offFmu := by
  unfold Fabric.settle
  extract_lets c f1
  have h1 : f1.offFmu = f.offFmu := by
    unfold f1
    split
    · rfl
    · exact Fabric.forEach_keeps Fabric.offFmu (fun _ _ => Fabric.updCtr_fmu_offFmu ..) _ c.aborts
  split
  · split
    · exact (Fabric.retire_fmu_offFmu ..).trans h1
    · exact h1
  · exact h1

theorem Fabric.finish_fmu_offFmu (st : Status) (info : BitVec 48) : (f.finish .fmu eid st info).offFmu = f.offFmu := by
  unfold Fabric.finish
  split
  · rfl
  · rw [Fabric.settle_fmu_offFmu]
    split <;> exact Fabric.retire_fmu_offFmu ..

/-- The SNAPs that complete change the FMU's stream only (log entry 79). -/
theorem Fabric.finishSnap_offFmu (stop : Bool) : (f.finishSnap stop).offFmu = f.offFmu :=
  Fabric.forEach_keeps Fabric.offFmu (fun g _ => g.finish_fmu_offFmu ..) f _
theorem Fabric.finishSnap_offStream (stop : Bool) : (f.finishSnap stop).offStream = f.offStream :=
  Fabric.forEach_keeps Fabric.offStream (fun g _ => g.finish_fmu_offStream ..) f _

end

section
variable {f g : Fabric}
theorem Fabric.nis_of_offFmu (h : f.offFmu = g.offFmu) : f.nis = g.nis := (congrArg Fabric.nis h :)
theorem Fabric.stops_of_offFmu (h : f.offFmu = g.offFmu) : f.stops = g.stops := (congrArg Fabric.stops h :)
theorem Fabric.time_of_offFmu (h : f.offFmu = g.offFmu) : f.time = g.time := (congrArg Fabric.time h :)
theorem Fabric.frz_of_offFmu (h : f.offFmu = g.offFmu) : f.frz = g.frz := (congrArg Fabric.frz h :)
theorem Fabric.stop_of_offStream (h : f.offStream = g.offStream) : f.fmu.stop = g.fmu.stop := (congrArg Fmu.stop h :)
theorem Fabric.turn_of_offStream (h : f.offStream = g.offStream) : f.fmu.turn = g.fmu.turn := (congrArg Fmu.turn h :)
theorem Fabric.res_of_offStream (h : f.offStream = g.offStream) : f.fmu.res = g.fmu.res := (congrArg Fmu.res h :)
end

section
variable (f : Fabric) (stop : Bool)
@[simp] theorem Fabric.finishSnap_nis : (f.finishSnap stop).nis = f.nis := Fabric.nis_of_offFmu (f.finishSnap_offFmu stop)
@[simp] theorem Fabric.finishSnap_stops : (f.finishSnap stop).stops = f.stops := Fabric.stops_of_offFmu (f.finishSnap_offFmu stop)
@[simp] theorem Fabric.finishSnap_time : (f.finishSnap stop).time = f.time := Fabric.time_of_offFmu (f.finishSnap_offFmu stop)
@[simp] theorem Fabric.finishSnap_frz : (f.finishSnap stop).frz = f.frz := Fabric.frz_of_offFmu (f.finishSnap_offFmu stop)
@[simp] theorem Fabric.finishSnap_stop : (f.finishSnap stop).fmu.stop = f.fmu.stop :=
  Fabric.stop_of_offStream (f.finishSnap_offStream stop)
@[simp] theorem Fabric.finishSnap_turn : (f.finishSnap stop).fmu.turn = f.fmu.turn :=
  Fabric.turn_of_offStream (f.finishSnap_offStream stop)
@[simp] theorem Fabric.finishSnap_res : (f.finishSnap stop).fmu.res = f.fmu.res :=
  Fabric.res_of_offStream (f.finishSnap_offStream stop)
end

end Sys2Proof.Machine
end

section
/-! SUPPORT. The global stop, the counter freeze and the snapshot's publication (16 R368, R369; 19 R411). -/

namespace Sys2Proof.Machine

theorem NMap.get_mapAll {α : Type} (m : NMap α) (g : Nat → α → α) (k : Nat) {d : α} (hd : g k d = d) :
    (m.mapAll g).get k d = g k (m.get k d) := by
  have hfind : (m.mapAll g).find? k = (m.find? k).map (g k) := by
    induction m with
    | nil => rfl
    | cons e m ih =>
      obtain ⟨a, x⟩ := e
      simp only [NMap.mapAll, List.map_cons, NMap.find?]
      split
      next h => rw [h, Option.map_some]
      next => exact ih
  unfold NMap.get
  rw [hfind]
  cases m.find? k with
  | none => exact hd.symm
  | some x => rfl

section
variable (f : Fabric) (a : Nat) (c : Bool)

/-- Without a sealed turn a global stop records the snapshot, empties the issue ports and
marks the package stopped. -/
theorem Fabric.stopNow_unsealed (h : f.fmu.turn.sealed_ = false) : f.stopNow a c =
    ({ f with snap := some f.view, nis := f.nis.mapAll fun _ n => { n with tsq := { n.tsq with fip := {} } } }).updFmu fun m =>
      { m with stop := { m.stop with
        stopAt := none, stopped := true, cause := c, lastAt := a, publish := true
        frozeAt := if m.stop.stopped then m.stop.frozeAt else a } } := by
  simp [Fabric.stopNow, h]

/-- A capture of the nondeterminism counts changes the FMU's determinism record only (14 R329). -/
theorem Fabric.captureNdet_eq (freeze : Bool) : ∃ d, f.captureNdet freeze = f.updFmu fun m => { m with dig := d } := by
  unfold Fabric.captureNdet
  dsimp only
  split
  · exact ⟨f.fmu.dig, rfl⟩
  · exact ⟨_, rfl⟩

/-- A counter freeze captures the view, publishes it and completes its SNAPs. -/
theorem Fabric.freezeNow_eq : ∃ d ws, f.freezeNow a = (({ f with frz := some f.view }).updFmu fun m =>
    { m with stop := { m.stop with freezeAt := none }, res := { m.res with frz := m.res.frz.publish ws }, dig := d }).finishSnap
      false := by
  obtain ⟨d, hd⟩ := Fabric.captureNdet_eq (({ f with frz := some f.view }).updFmu fun m =>
    { m with stop := { m.stop with freezeAt := none }, res := { m.res with frz := (m.res.frz.publish
      [BitVec.ofNat 32 (a / msLen % 65536), (fccWord a).extractLsb' 0 32, (fccWord a).extractLsb' 32 32]) } }) true
  exact ⟨d, _, congrArg (·.finishSnap false) hd⟩

theorem Fabric.freezeNow_frame :
    let g := f.freezeNow a
    g.frz = some f.view ∧ g.fmu.stop = { f.fmu.stop with freezeAt := none } ∧ g.fmu.turn = f.fmu.turn ∧
    g.fmu.res.frz.valid = true ∧ g.fmu.res.frz.seq = f.fmu.res.frz.seq + 1 ∧ g.nis = f.nis ∧ g.stops = f.stops ∧
    g.time = f.time := by
  obtain ⟨d, ws, h⟩ := f.freezeNow_eq a
  simp [h]

end

/-! ## What is scheduled (02 R54) -/

section
variable {f : Fabric} {t : Nat}

/-- Without a sealed turn only a stop and a freeze can be scheduled. -/
theorem Fabric.scheduled_stop {a : Nat} {c : Bool} (ht : f.fmu.turn.sealed_ = false)
    (hs : f.fmu.stop.stopAt = some (a, c)) (hz : f.fmu.stop.freezeAt = none) : f.scheduled = [(f.slotOf a, .stop c)] := by
  simp [Fabric.scheduled, Turn.arming, Fabric.disarmAwaited, Turn.armed, ht, hs, hz]
theorem Fabric.scheduled_freeze {a : Nat} (ht : f.fmu.turn.sealed_ = false) (hs : f.fmu.stop.stopAt = none)
    (hz : f.fmu.stop.freezeAt = some a) : f.scheduled = [(f.slotOf a, .freeze)] := by
  simp [Fabric.scheduled, Turn.arming, Fabric.disarmAwaited, Turn.armed, ht, hs, hz]
theorem Fabric.scheduled_nothing (ht : f.fmu.turn.sealed_ = false) (hs : f.fmu.stop.stopAt = none)
    (hz : f.fmu.stop.freezeAt = none) : f.scheduled = [] := by
  simp [Fabric.scheduled, Turn.arming, Fabric.disarmAwaited, Turn.armed, ht, hs, hz]

/-- The one event scheduled takes effect at its instant, and nothing more where it leaves none. -/
theorem Fabric.instant_single {e : Sched} (h : f.scheduled = [(t, e)]) (hn : (f.doSched (t, e)).scheduled = []) :
    f.instant t = f.doSched (t, e) := by
  simp [Fabric.instant, Fabric.runSched, earliest, h, hn]

theorem Fabric.instant_stop {a : Nat} {c : Bool} (ht : f.fmu.turn.sealed_ = false) (hs : f.fmu.stop.stopAt = some (a, c))
    (hz : f.fmu.stop.freezeAt = none) :
    f.instant (f.slotOf a) = (f.reach (f.slotOf a)).stopNow (f.slotOf a) c := by
  refine Fabric.instant_single (e := .stop c) (Fabric.scheduled_stop ht hs hz) ?_
  have hr : (f.reach (f.slotOf a)).fmu.turn.sealed_ = false := by rw [Fabric.reach_fmu, ht]
  have hz' : (f.reach (f.slotOf a)).fmu.stop.freezeAt = none := by rw [Fabric.reach_fmu, hz]
  change ((f.reach (f.slotOf a)).stopNow (f.slotOf a) c).scheduled = []
  rw [Fabric.stopNow_unsealed _ _ _ hr]
  exact Fabric.scheduled_nothing hr rfl hz'

theorem Fabric.instant_freeze {a : Nat} (ht : f.fmu.turn.sealed_ = false) (hs : f.fmu.stop.stopAt = none)
    (hz : f.fmu.stop.freezeAt = some a) :
    f.instant (f.slotOf a) = (f.reach (f.slotOf a)).freezeNow (f.slotOf a) := by
  refine Fabric.instant_single (e := .freeze) (Fabric.scheduled_freeze ht hs hz) ?_
  obtain ⟨-, hstop, hturn, -⟩ := (f.reach (f.slotOf a)).freezeNow_frame (f.slotOf a)
  rw [Fabric.reach_fmu] at hstop hturn
  change ((f.reach (f.slotOf a)).freezeNow (f.slotOf a)).scheduled = []
  exact Fabric.scheduled_nothing (hturn ▸ ht) (by rw [hstop]; exact hs) (by rw [hstop])

end

section
variable {s : State} (hf : s.fab.live = true)
include hf

theorem gives_globalStop {a : Nat} {c : Bool} (hs : s.fab.fmu.stop.stopAt = some (a, c)) (hd : s.fab.dueAt a = true) :
    gives .globalStop s (s.fab.instant (s.fab.slotOf a)) := by
  have hg := gives_when (c := .globalStop) (s := s) (b := Fabric.live) rfl hf
  simp only [hs, if_pos hd] at hg
  exact hg

theorem gives_counterFreeze {a : Nat} (hs : s.fab.fmu.stop.freezeAt = some a) (hd : s.fab.dueAt a = true) :
    gives .counterFreeze s (s.fab.instant (s.fab.slotOf a)) := by
  have hg := gives_when (c := .counterFreeze) (s := s) (b := Fabric.live) rfl hf
  simp only [hs, if_pos hd] at hg
  exact hg

theorem gives_snapshotPublish (hp : s.fab.fmu.stop.publish = true) :
    gives .snapshotPublish s ((s.fab.updFmu fun m => { m with
      stop := { m.stop with publish := false }
      res := { m.res with snap := m.res.snap.publish [mkWord [(23, b2n s.fab.fmu.stop.cause),
        (0, ((s.fab.snap.map (·.fcc)).getD s.fab.fmu.stop.lastAt) / msLen % 65536)]] } }).finishSnap true) :=
  gives_when (c := .snapshotPublish) (b := fun f => f.live && f.fmu.stop.publish) rfl (by simp [hf, hp])

end

/-- A write of `RESUME` sets the boundary while the package is stopped, once (16 R370). -/
theorem Fabric.resumeWrite_stopped {f : Fabric} (hs : f.fmu.stop.stopped = true) (hr : f.fmu.stop.resumeAt = none) :
    f.resumeWrite = f.updFmu fun m => { m with stop := { m.stop with resumeAt := some f.haltAt } } :=
  if_pos (by simp [hs, hr])
theorem Fabric.resumeWrite_running {f : Fabric} (hs : f.fmu.stop.stopped = false) : f.resumeWrite = f :=
  if_neg (by simp [hs])

end Sys2Proof.Machine
end

section
/-! SUPPORT. The milestone bookkeeping moves no count (02 R54; 16 R370). -/

namespace Sys2Proof.Machine

/-! ## What the stacks sent while the package was stopped (16 R370) -/

section
variable (f : Fabric) (p : Nat)

theorem Fabric.addLine_time (place i : Nat) (write : Bool) (addr : Nat) (bs : Bytes) :
    (f.addLine p place i write addr bs).time = f.time := by
  unfold Fabric.addLine
  split <;> rfl

theorem Fabric.makeLines_time (n : Nat) : (f.makeLines p n).time = f.time := by
  induction n generalizing f with
  | zero => rfl
  | succ n ih =>
    unfold Fabric.makeLines
    dsimp only
    split
    · rfl
    · split
      · rfl
      · rw [ih, Fabric.updNi_time, Fabric.addLine_time]

theorem Fabric.countPoison_time (pl : Place) : (f.countPoison p pl).time = f.time := by
  unfold Fabric.countPoison
  split
  · split <;> rfl
  · split <;> rfl

theorem Fabric.placeDone_time (k : Nat) (pl : Place) : (f.placeDone p k pl).time = f.time := by
  unfold Fabric.placeDone
  dsimp only
  split
  · rfl
  · rfl
  · exact Fabric.countPoison_time ..
  · split
    · split
      · rfl
      · exact Fabric.countPoison_time ..
    · exact Fabric.countPoison_time ..

theorem Fabric.lineResponse_time (id : BitVec 8) (stat : BitVec 2) (data : Bytes) :
    (f.lineResponse p id stat data).time = f.time := by
  unfold Fabric.lineResponse
  dsimp only
  split
  · rfl
  · split
    · rfl
    · split
      · rfl
      · rw [Fabric.makeLines_time]
        split
        · exact Fabric.placeDone_time ..
        · rfl

theorem Fabric.stackActs_time (x : StackIn) : (f.stackActs p x).time = f.time := by
  cases x with
  | line id stat data => exact f.lineResponse_time p id stat data
  | scrub kind line =>
    change (f.scrubReported p kind line).time = _
    unfold Fabric.scrubReported
    split <;> rfl

theorem Fabric.openInboxes_time : f.openInboxes.time = f.time := by
  refine Fabric.forEach_keeps Fabric.time (fun g e => ?_) f f.nis
  exact Fabric.forEach_keeps Fabric.time (fun h x => h.stackActs_time e.1 x) _ e.2.tgt.inbox

end

/-! ## The bookkeeping -/

section
variable (f : Fabric)

theorem Fabric.applyContain_time (t : Bool × Nat) : (f.applyContain t).time = f.time := by
  unfold Fabric.applyContain
  dsimp only
  split
  · rfl
  · split <;> rfl

theorem Fabric.resumeNow_time : f.resumeNow.time = f.time :=
  Fabric.forEach_keeps Fabric.time Fabric.applyContain_time _ f.fmu.fault.heldFences

theorem Fabric.resumeAtNow_time (t : Nat) : (f.resumeAtNow t).time = f.time := by
  unfold Fabric.resumeAtNow
  dsimp only
  rw [Fabric.openInboxes_time, Fabric.resumeNow_time]

theorem Fabric.drainSample_time : f.drainSample.time = f.time := by
  unfold Fabric.drainSample
  split
  · rfl
  · split
    · rfl
    · exact Fabric.forEach_keeps Fabric.time (by intros; rfl) f f.dieIds

theorem Fabric.captureNdet_time (freeze : Bool) : (f.captureNdet freeze).time = f.time := by
  obtain ⟨d, h⟩ := f.captureNdet_eq freeze
  rw [h, Fabric.updFmu_time]

theorem Fabric.timeMark_time (d : Nat) : (f.timeMark d).time = f.time := by
  unfold Fabric.timeMark
  split <;> rfl

theorem Fabric.openCrawl_time : f.openCrawl.time = f.time := by
  unfold Fabric.openCrawl
  split <;> rfl

/-- D0's count and the milestone whose bookkeeping has run. -/
def Fabric.clock (f : Fabric) : Nat × Nat := (f.time.fcc, f.time.booked)

/-- A missed tick changes what the time registers say of ticks, and no count (02 R46, R51). -/
theorem Fabric.judgeTick_clock : f.judgeTick.clock = f.clock := by
  unfold Fabric.judgeTick
  dsimp only
  split
  · rfl
  · split
    · rfl
    · split <;> rfl

/-- The stops and NIs close their milestone, and the FMU asks for the boards. -/
theorem Fabric.closeMilestone_time (mseq : Word) :
    let g1 := f.forEach f.stopIds fun h s => h.closeStop s mseq
    (g1.forEach g1.niPorts fun h p => h.closeNi p mseq).time = f.time := by
  intro g1
  exact (Fabric.forEach_keeps Fabric.time (by intros; rfl) g1 _).trans
    (Fabric.forEach_keeps Fabric.time (by intros; rfl) f f.stopIds)

/-- The bookkeeping moves no count. -/
theorem Fabric.bookkeep_clock (ms : Nat) : (f.bookkeep ms).clock = f.clock := by
  have hclock {g h : Fabric} (e : g.time = h.time) : g.clock = h.clock := congrArg (fun x : Time => (x.fcc, x.booked)) e
  unfold Fabric.bookkeep
  extract_lets t f1 f2 mseq f3
  have h1 : f1.clock = f.clock := by
    unfold f1
    split
    · split
      · exact hclock (f.resumeAtNow_time t)
      · rfl
    · rfl
  have h2 : f2.clock = f.clock := f1.countQuiet.judgeTick_clock.trans h1
  have h3 : f3.clock = f.clock := by
    refine Eq.trans ?_ h2
    unfold f3 Fabric.when
    split
    · refine hclock ?_
      rw [Fabric.captureNdet_time, Fabric.drainSample_time]
      exact f2.closeMilestone_time _
    · rfl
  refine (hclock (Fabric.openCrawl_time _)).trans ?_
  exact (hclock (Fabric.forEach_keeps Fabric.time Fabric.timeMark_time f3 f3.dieIds)).trans h3

/-- The boundary is reached and the milestone before it is booked. -/
theorem Fabric.milestone_clock :
    f.milestone.time.booked = f.time.booked + 1 ∧ (f.time.booked + 1) * msLen ≤ f.milestone.time.fcc := by
  have h := Fabric.bookkeep_clock ((((f.instant ((f.time.booked + 1) * msLen)).reach ((f.time.booked + 1) * msLen))).updTime
    fun x => { x with booked := f.time.booked + 1 }) f.time.booked
  have hfcc : f.milestone.time.fcc = _ := congrArg Prod.fst h
  have hbooked : f.milestone.time.booked = _ := congrArg Prod.snd h
  rw [hfcc, hbooked]
  exact ⟨rfl, Fabric.le_fcc_reach ..⟩

end

end Sys2Proof.Machine
end

section
/-! SUPPORT. The end of a retraining (17 R374). -/

namespace Sys2Proof.Machine

section
variable (f : Fabric) (s o : Nat)

/-- A write of a receiving end leaves every sending end of the stops. -/
theorem Fabric.updRx_txOf (t i : Nat) (g : LinkRx → LinkRx) : (f.updRx (.st t i) g).txOf s o = f.txOf s o := by
  have h : ((f.updRx (.st t i) g).stopU s).tx = (f.stopU s).tx := by
    change ((f.updStop t fun x => { x with rx := _ }).stopU s).tx = _
    rcases Decidable.em (s = t) with rfl | hne
    · rw [Fabric.updStop_stop_self]
    · rw [Fabric.updStop_stop_ne _ _ hne]
  exact congrArg (fun m : NMap LinkTx => m.get o {}) h

theorem Fabric.updTx_txOf (g : LinkTx → LinkTx) : (f.updTx (.st s o) g).txOf s o = g (f.txOf s o) := by
  simp [Fabric.updTx, Fabric.setTx, Fabric.tx, Fabric.txOf]

/-- A direction that comes up starts afresh, with its count of retries. -/
theorem Fabric.linkEnters_txOf (st : LinkState) (x : Nat) : (f.linkEnters s o st x).txOf s o =
    { ({} : LinkTx) with state := st, retries := (f.txOf s o).retries } := by
  have h0 : (f.when (f.bridge s o) fun f => f.updFmu fun m => { m with dig := { m.dig with dsrValid := false } }).txOf s o =
      f.txOf s o := by unfold Fabric.when; split <;> rfl
  unfold Fabric.linkEnters
  rw [Fabric.updRx_txOf, Fabric.updTx_txOf, h0]

theorem Fabric.linkEnters_nis (st : LinkState) (x : Nat) : (f.linkEnters s o st x).nis = f.nis := by
  have h0 : (f.when (f.bridge s o) fun f => f.updFmu fun m => { m with dig := { m.dig with dsrValid := false } }).nis =
      f.nis := by unfold Fabric.when; split <;> rfl
  exact h0

theorem Fabric.repairWires_nis (bridge : Bool) (failed : List Nat) : (f.repairWires s o bridge failed).1.nis = f.nis := rfl

theorem Fabric.repairWires_spare (bridge : Bool) (failed : List Nat) (t : Nat) :
    ((f.repairWires s o bridge failed).1.stopU t).spare = (f.stopU t).spare := by
  change ((f.updStop s fun x => { x with wear := _ }).stopU t).spare = _
  rcases Decidable.em (t = s) with rfl | hne
  · rw [Fabric.updStop_stop_self]
  · rw [Fabric.updStop_stop_ne _ _ hne]

/-- The next stop depends on the stops that are bypassed only (05 R120). -/
theorem Fabric.nbrFuel_congr {f g : Fabric} (hv : g.variant = f.variant)
    (hs : ∀ t, (g.stopU t).spare = (f.stopU t).spare) (n s o : Nat) : g.nbrFuel n s o = f.nbrFuel n s o := by
  induction n generalizing s with
  | zero => rw [Fabric.nbrFuel, Fabric.nbrFuel, hv]
  | succ n ih => simp only [Fabric.nbrFuel, hv, hs, ih]

/-- Repairing wires does not change which state a trained output comes up in. -/
theorem Fabric.repairWires_upState (bridge : Bool) (failed : List Nat) (t u : Nat) :
    (f.repairWires s o bridge failed).1.upState t u = f.upState t u := by
  simp only [Fabric.upState, Fabric.nbr, Fabric.nbrFuel_congr (show (f.repairWires s o bridge failed).1.variant = f.variant from rfl)
    (f.repairWires_spare s o bridge failed)]
  rfl

end

/-- Where the wires that failed are repaired the direction comes up; otherwise its link stays withdrawn. -/
theorem gives_retrainComplete {s : State} {t o x : Nat} {failed : List Nat} (good : Bool) (hm : s.fab.moving = true)
    (ht : t < nStops s.fab.variant) (ho : o < 4) (hb : (s.fab.stopU t).spare.bypass = false)
    (hr : (s.fab.txOf t o).retrain = true) :
    let r := s.fab.repairWires (s.fab.nbr t o) o (s.fab.bridge t o) failed
    gives (.retrainComplete t o good failed x) s
      (if good && !r.2 then r.1.linkEnters t o (r.1.upState t o) x else r.1.retrainFailed t o) := by
  have hg := gives_when (c := .retrainComplete t o good failed x) (s := s)
    (b := fun f => f.moving && t < nStops f.variant && o < 4 && !(f.stopU t).spare.bypass && (f.txOf t o).retrain) rfl
    (by simp [hm, ht, ho, hb, hr])
  dsimp only at hg ⊢
  rw [Fabric.repairWires_upState]
  exact hg

/-- Settles O23: what is scheduled takes effect at its instant (log entries 20, 77, 78, 82). -/
theorem scheduledInstants : Obligations.ScheduledInstants := by
  refine ⟨fun s a c hf hs hd => ⟨gives_globalStop hf hs hd, fun hz ht => ?stop⟩,
    fun s a hf hz hd => ⟨gives_counterFreeze hf hz hd, fun hs ht => ?freeze⟩, fun f a c ht => ?snapshot, fun f a => ?capture,
    fun s hf hp => ?publish, fun s hf => ⟨fun hs hr => ?resume, fun hs => ?running⟩, fun s hf => ?milestone,
    fun s t o x failed hm ht ho hb hr => ?retrain⟩
  case stop => exact Fabric.instant_stop ht hs hz ▸ gives_globalStop hf hs hd
  case freeze => exact Fabric.instant_freeze ht hs hz ▸ gives_counterFreeze hf hz hd
  case snapshot =>
    dsimp only
    rw [Fabric.stopNow_unsealed _ _ _ ht]
    exact ⟨rfl, rfl, rfl, rfl, rfl, rfl, fun p => NMap.get_mapAll f.nis (fun _ n => { n with tsq := { n.tsq with fip := {} } }) p rfl, rfl, rfl⟩
  case capture =>
    obtain ⟨hfrz, hstop, -, hvalid, hseq, hnis, hstops, htime⟩ := f.freezeNow_frame a
    exact ⟨hfrz, by rw [hstop], hvalid, hseq, hnis, hstops, htime⟩
  case publish => exact (gives_snapshotPublish hf hp).answers (by simp)
  case resume => exact Fabric.resumeWrite_stopped hs hr ▸ gives_onBus Fabric.resumeWrite rfl hf
  case running => exact Fabric.resumeWrite_running hs ▸ gives_onBus Fabric.resumeWrite rfl hf
  case milestone =>
    have hg : gives .milestoneBoundary s s.fab.milestone := gives_when (b := Fabric.live) rfl hf
    exact ⟨hg, hg.answers s.fab.milestone_clock⟩
  case retrain =>
    intro r
    have hg (good : Bool) := gives_retrainComplete (x := x) (failed := failed) good hm ht ho hb hr
    refine ⟨fun hshort => ?_, hg false⟩
    have hup := hg true
    dsimp only at hup
    rw [if_pos (by simpa using hshort)] at hup
    refine ⟨hup, hup.answers ?_⟩
    rw [Fabric.linkEnters_txOf, Fabric.linkEnters_nis]
    exact ⟨rfl, rfl, rfl, Fabric.repairWires_nis ..⟩

end Sys2Proof.Machine
end

section
/-! SUPPORT. Headers and control fields as bits, and the header check (03 R60, R61, R64-R66). -/

namespace Sys2Proof.Machine

/-! ## Bits side by side

`simp` indexes `x ++ y` by its width, a numeral here, so these library facts are stated for `BitVec.append`, which
carries no width. -/

section
variable {v w i n : Nat}

theorem extract_append_low (x : BitVec v) (y : BitVec w) (h : i + n ≤ w) :
    (x.append y).extractLsb' i n = y.extractLsb' i n := BitVec.extractLsb'_append_eq_of_add_le h

theorem extract_append_high (x : BitVec v) (y : BitVec w) (h : w ≤ i) :
    (x.append y).extractLsb' i n = x.extractLsb' (i - w) n := BitVec.extractLsb'_append_eq_of_le h

theorem append_extract_adjacent {j m : Nat} (x : BitVec w) (h : j = i + n) :
    (x.extractLsb' j m).append (x.extractLsb' i n) = x.extractLsb' i (m + n) :=
  BitVec.extractLsb'_append_extractLsb'_eq_extractLsb' h

theorem extract_all (x : BitVec w) : x.extractLsb' 0 w = x := BitVec.extractLsb'_eq_self

end

/-! ## Fields and bits -/

theorem Header.ofBits_toBits (h : Header) : Header.ofBits (Header.toBits h) = h := by
  dsimp only [Header.ofBits, Header.toBits, HAppend.hAppend]
  simp (disch := decide) only [extract_append_low, extract_append_high, append_extract_adjacent, extract_all,
    Nat.reduceSub, Nat.reduceAdd]

theorem Header.toBits_ofBits (b : BitVec 256) : Header.toBits (Header.ofBits b) = b := by
  dsimp only [Header.ofBits, Header.toBits, HAppend.hAppend]
  simp (disch := decide) only [extract_append_low, extract_append_high, append_extract_adjacent, extract_all,
    Nat.reduceSub, Nat.reduceAdd]

theorem Ctl.ofBits_toBits (c : Ctl) : Ctl.ofBits (Ctl.toBits c) = c := by
  dsimp only [Ctl.ofBits, Ctl.toBits, HAppend.hAppend]
  simp (disch := decide) only [extract_append_low, extract_append_high, extract_all, Nat.reduceSub]

/-! ## The check (03 R66) -/

/-- Every word that the check reads lies above its own. -/
theorem hchkWord_append (x : BitVec 240) (c d : BitVec 16) (i : Nat) :
    hchkWord (x ++ c) (i + 1) = hchkWord (x ++ d) (i + 1) := by
  have hw (y : BitVec 16) : (x ++ y).extractLsb' (16 * (i + 1)) 16 = x.extractLsb' (16 * (i + 1) - 16) 16 :=
    BitVec.extractLsb'_append_eq_of_le (by omega)
  unfold hchkWord
  rw [hw c, hw d]

/-- The check does not cover itself. -/
theorem hchkOf_append (x : BitVec 240) (c d : BitVec 16) : hchkOf (x ++ c) = hchkOf (x ++ d) := by
  simp only [hchkOf, hchkWord_append x c d]

theorem Header.checks_seal (h : Header) : Header.checks (Header.seal h) = true :=
  beq_iff_eq.2 (hchkOf_append _ h.hchk (hchkOf (Header.toBits h)))

/-- Settles O54: each field is read back from its place, and the places fill the word. -/
theorem headerEncoding : Obligations.HeaderEncoding :=
  ⟨Header.ofBits_toBits, Header.toBits_ofBits, Ctl.ofBits_toBits, fun h => ⟨Header.checks_seal h, rfl⟩⟩

end Sys2Proof.Machine
end

section
/-! SUPPORT. The start of an op of a TSQ channel (07 R162), and a SIGNAL that an ABORT has marked (07 R173, R176). -/

namespace Sys2Proof.Machine

/-- A command that starts the op at the head of a TSQ channel: what it does where nothing holds the op back. -/
theorem gives_startOp {c : Instr} {s : State} {p n oc : Nat} {e : QEntry} {k : Fabric → QEntry → Fabric}
    (hc : exec c s = s.run fun f => f.startOp (.tsq p n) oc k) (hs : startable s.fab p n e) (ho : opcOf e.op = oc) :
    gives c s (k (s.fab.begin (.tsq p n) e) e) := by
  obtain ⟨hlive, hcan, hhead⟩ := hs
  rw [gives, hc, State.run_eq, Fabric.startOp, Fabric.when_of _ hlive]
  simp [hhead, ho, hcan]

theorem gives.unique {c : Instr} {s : State} {f g : Fabric} (hf : gives c s f) (hg : gives c s g) : f = g :=
  congrArg State.fab (Host.Outcome.next.inj (hf.symm.trans hg))

/-- A local SIGNAL of `ADDEND` 0 and `CINC` 0 on counter 0, marked aborted and not yet started. -/
def abortedSignal : QEntry := { eid := 0, op := BitVec.ofNat 128 (ocSignal * 2 ^ 122 + 3 * 2 ^ 94), aborted := true }

/-- Channel 0 of the Core NI at port 0 holds that op alone, after crawl service has opened. -/
def abortedSignalState : State :=
  { fab := { fmu := { prog := { open_ := true } }, nis := [(0, { tsq := { chans := [(0, { queue := [abortedSignal] })] } })] } }

theorem abortedSignal_startable : startable abortedSignalState.fab 0 0 abortedSignal := by
  simp only [startable]; decide +kernel

/-- An aborted op completes `ABORTED`, whatever its own outcome (07 R176). -/
theorem abortedSignal_status {g : Fabric} (hg : gives (.signal (.tsq 0 0)) abortedSignalState g) :
    (g.ctr (.tsq 0 0) 0).status = .aborted := by
  rw [hg.unique (gives_startOp rfl abortedSignal_startable rfl)]
  decide +kernel

/-- Refutes O5: nothing in its first clause keeps the op from being marked aborted before it starts, and then
it completes `ABORTED` where the clause says OK. -/
theorem not_signalAddsOrSends : ¬ Obligations.SignalAddsOrSends := by
  intro h
  obtain ⟨g, hg, -, hctr, -⟩ := (h abortedSignalState 0 0 abortedSignal abortedSignal_startable rfl).1 rfl rfl
  have hok : (g.ctr (.tsq 0 0) 0).status = .ok := by
    rw [hctr 0]
    decide +kernel
  exact absurd ((abortedSignal_status hg).symm.trans hok) (by decide)

end Sys2Proof.Machine
end

section
/-! SUPPORT. Taking a packet from the receive buffer of an NI (03 R66; 05 R116), and what each unit does with
the packet it takes (03 R69, R70, R77, R80, R93; 08 R187, R203). -/

namespace Sys2Proof.Machine

/-! ## Taking a packet -/

section
variable {f g : Fabric} {p : Nat} {t : QPkt → Bool} {q : QPkt} (k : Fabric → Packet → QPkt → Fabric)

theorem Fabric.niTake_badCheck (h : takeVc t f p (List.range 12) = some (q, g)) (hc : Header.checks q.hdr = false) :
    f.niTake p t k = g.raiseNi p .hdrCheck (infoIcv 0 0 0) := by
  simp [Fabric.niTake, h, hc]

theorem Fabric.niTake_truncated (h : takeVc t f p (List.range 12) = some (q, g)) (hc : Header.checks q.hdr = true)
    (hq : q.truncated = true) :
    f.niTake p t k = (g.niErr p 4).raiseNi p .truncated (p + q.hdr.tag.toNat * 2 ^ 20) := by
  simp [Fabric.niTake, h, hc, hq]

theorem Fabric.niTake_delivered (h : delivers f p t q g) : f.niTake p t k = k g q.packet q := by
  obtain ⟨htake, hcheck, hwhole⟩ := h
  simp [Fabric.niTake, htake, hcheck, hwhole]

end

/-- Settles O38: the two faults are the first two outcomes of taking a packet. -/
theorem spoiltPacketsAreDiscarded : Obligations.SpoiltPacketsAreDiscarded :=
  fun _ _ _ _ k _ h => ⟨Fabric.niTake_badCheck k h, Fabric.niTake_truncated k h⟩

/-- A command that takes a packet where a condition holds: what it does with the one it takes. -/
theorem gives_niTake {c : Instr} {s : State} {p : Nat} {b : Fabric → Bool} {t : Fabric → QPkt → Bool}
    {k : Fabric → Packet → QPkt → Fabric} {q : QPkt} {g : Fabric}
    (hc : exec c s = s.run fun f => f.when (b f) fun f => f.niTake p (t f) k) (hb : b s.fab = true)
    (hd : delivers s.fab p (t s.fab) q g) : gives c s (k g q.packet q) := by
  have h := gives_when hc hb
  rwa [Fabric.niTake_delivered k hd] at h

/-! ## What is done with it -/

section
variable {f : Fabric} {p : Nat} {a : Packet}

/-- The answer to the only open chunk of its tag: its entry is consumed, the result written, the chunk ended. -/
theorem Fabric.takeDone_chunk {o : OrtEntry} {c e i : Nat} (hgood : doneBad a.hdr (redOf a.aux) = false)
    (ho : (f.ni p).ini.ort.filter (fun x => x.matches a.hdr) = [o]) (hdom : o.dom = a.hdr.domain)
    (hpurpose : o.purpose = .chunk c e i) (hmain : (redOf a.aux).rop ≠ 7) (hbody : a.body ≠ []) :
    f.takeDone p a = ((((f.consumeEntry p o a).lmWrite p (resultAddr a.hdr a.aux) a.body).redConsumed p
      a.hdr.tag.toNat a.hdr.seq.toNat)).endChunk p c e i (statusOfHdr a.hdr) (answerInfo o a.hdr (statusOfHdr a.hdr)) := by
  have hrop : (redOf a.aux).rop ≠ 7#4 := hmain
  simp [Fabric.takeDone, hgood, ho, hdom, hpurpose, hrop, hbody, resultAddr]

/-- A grant of egress credit that comes in sequence, at a Core NI (13 R306). -/
theorem Fabric.takeCredit_egress (hkind : f.kind p = 1) (hgood : badHeader a.hdr = false) (haddr : a.hdr.addr = 0)
    (hseq : xcGseq a.aux = (f.ni p).gseq.expect.get (4 * portOf a.hdr.src) 1) :
    ((f.takeCredit p a).ni p).ini.egCredit.get (portOf a.hdr.src) 0 =
      (f.ni p).ini.egCredit.get (portOf a.hdr.src) 0 + (xcGrant a.aux : Int) := by
  have hkind' (u : Ni → Ni) : (f.updNi p u).kind p = 1 := hkind
  simp [Fabric.takeCredit, Fabric.applyGrant, xcSender, hgood, haddr, ← hseq, hkind', fld, bits]

/-- An answer joins the end of the NI's queue of answers (06 R132). -/
theorem Fabric.answer_injQ (a : Packet) :
    (f.answer p a).injQ p 101 = f.injQ p 101 ++ [{ pkt := a, at_ := f.time.fcc }] := Fabric.enqueue_injQ_self ..

theorem Fabric.lmWrite_injQ (m q : Nat) (bs : Bytes) : (f.lmWrite p m bs).injQ p q = f.injQ p q := by
  simp [Fabric.lmWrite, Fabric.injQ]

theorem Fabric.lmWrite_lm (m : Nat) (bs : Bytes) : ((f.lmWrite p m bs).ni p).core.lm = (f.ni p).core.lm.write m bs := by
  simp [Fabric.lmWrite]

end

/-- A counter of a TSQ that changes in the present fc, and the counters that do not. -/
theorem Fabric.updCtr_tsq_ctrs (f : Fabric) (p c n : Nat) (k : Counter → Counter) :
    ((f.updCtr (.tsq p c) n k).ni p).tsq.ctrs.get n {} = k (((f.ni p).tsq.ctrs.get n {}).now f.time.fcc) ∧
    ∀ m, m ≠ n → ((f.updCtr (.tsq p c) n k).ni p).tsq.ctrs.get m {} = (f.ni p).tsq.ctrs.get m {} := by
  have h : ((f.updCtr (.tsq p c) n k).ni p).tsq.ctrs = (f.ni p).tsq.ctrs.upd n {} fun x => k (x.now f.time.fcc) := by
    simp [Fabric.updCtr]
  rw [h]
  exact ⟨NMap.get_upd_self .., fun m hm => NMap.get_upd_ne _ _ _ _ hm⟩

section
variable {s : State} {p : Nat} {q : QPkt} {g : Fabric} (hm : s.fab.moving = true) (hp : s.fab.powered p = true)
include hm hp

theorem answerConsume_taken (hk : s.fab.kind p ≠ 0) (hd : delivers s.fab p (fun x => s.fab.takesAnswer p x.hdr) q g) :
    gives (.answerConsume p) s (g.takeAnswer p q.packet) :=
  gives_niTake (b := fun f => f.moving && f.kind p != 0 && f.powered p) (t := fun f x => f.takesAnswer p x.hdr)
    (k := fun f a _ => f.takeAnswer p a) rfl
    (by simp [hm, hp, hk]) hd

theorem rdDoneConsume_taken (hk : s.fab.kind p = 1)
    (hd : delivers s.fab p (fun x => x.hdr.kind == 8 && !s.fab.rootCopy p x) q g) :
    gives (.rdDoneConsume p) s (g.takeDone p q.packet) :=
  gives_niTake (b := fun f => f.moving && f.kind p == 1 && f.powered p)
    (t := fun f x => x.hdr.kind == 8 && !f.rootCopy p x) (k := fun f a _ => f.takeDone p a) rfl (by simp [hm, hp, hk]) hd

theorem xcreditReceive_taken (hk : s.fab.kind p = 1) (hd : delivers s.fab p (fun x => x.hdr.kind == 14) q g) :
    gives (.xcreditReceive p none) s (g.takeCredit p q.packet) :=
  gives_niTake (b := fun f => f.moving && f.kind p != 0 && f.powered p) (t := fun _ x => x.hdr.kind == 14)
    (k := fun f a _ => f.takeCredit p a) rfl (by simp [hm, hp, hk]) hd

/-- A SIG for a counter of a Core NI is added to it (07 R173). -/
theorem sigAdd_taken (hk : s.fab.kind p = 1) (hg : g.kind p = 1)
    (hd : delivers s.fab p (fun x => x.hdr.kind == 4 && !(s.fab.kind p == 3 && x.hdr.cls == 5)) q g)
    (hgood : badHeader q.packet.hdr = false) (hn : q.packet.hdr.addr.toNat < 256) :
    gives (.sigAdd p) s (g.updCtr (.tsq p 0) q.packet.hdr.addr.toNat fun c => c.addTo (sigAddend q.packet.aux)) := by
  have h := gives_niTake (c := .sigAdd p) (s := s) (b := fun f => f.moving && f.kind p != 0 && f.powered p)
    (t := fun f x => x.hdr.kind == 4 && !(f.kind p == 3 && x.hdr.cls == 5)) rfl (by simp [hm, hp, hk]) hd
  simpa [hgood, hg, hn] using h

/-- A request of class `REQ` that the NI's memory is open to: a write is committed, a read answered with the bytes
that come with the command (08 R187). -/
theorem localMemRequest_taken (d : Bytes) (hk : s.fab.kind p = 1)
    (hd : delivers s.fab p (fun x => (x.hdr.kind == 0 || x.hdr.kind == 1) && !isNotice x.hdr &&
      (x.hdr.cls != 2 || (s.fab.ni p).lmBusy < 16)) q g)
    (h1 : q.packet.hdr.cls ≠ 1) (h5 : q.packet.hdr.cls ≠ 5) (hgood : badHeader q.packet.hdr = false)
    (hopen : g.lmOpen p q.packet.hdr.addr.toNat q.packet.hdr.bcnt.toNat (q.packet.hdr.kind == 1) = true) :
    let h := q.packet.hdr
    (h.kind = 1 → gives (.localMemRequest p d) s ((g.lmWrite p (fld h.addr 31 0) q.packet.body).answer p
      { hdr := { answerHdr h 3 .ok (g.node p) p with bcnt := h.bcnt } })) ∧
    (h.kind ≠ 1 → gives (.localMemRequest p d) s (g.answer p
      { hdr := { answerHdr h 2 .ok (g.node p) p with bcnt := h.bcnt, len := BitVec.ofNat 6 (dataLen h.addr.toNat h.bcnt.toNat) }
        body := sliceBytes d 0 h.bcnt.toNat })) := by
  have h := gives_niTake (c := .localMemRequest p d) (s := s) (b := fun f => f.moving && f.kind p == 1 && f.powered p)
    (t := fun f x => (x.hdr.kind == 0 || x.hdr.kind == 1) && !isNotice x.hdr && (x.hdr.cls != 2 || (f.ni p).lmBusy < 16))
    rfl (by simp [hm, hp, hk]) hd
  dsimp only at h
  rw [beq_eq_false_iff_ne.2 h1, beq_eq_false_iff_ne.2 h5, hgood, hopen] at h
  refine ⟨fun hw => ?_, fun hr => ?_⟩
  · rw [beq_iff_eq.2 hw] at h
    exact h
  · rw [beq_eq_false_iff_ne.2 hr] at h
    exact h

/-- A well-formed read of the directory is answered with its words (04 R446). -/
theorem directoryRequest_taken {ws : List Word} (hk : s.fab.kind p = 4)
    (hd : delivers s.fab p (fun x => x.hdr.kind == 0 || x.hdr.kind == 1) q g) (hgood : badHeader q.packet.hdr = false)
    (hws : g.dirWords p q.packet.hdr = some ws) :
    gives (.directoryRequest p) s (g.answer p
      { hdr := { answerHdr q.packet.hdr 2 .ok (g.node p) p with bcnt := q.packet.hdr.bcnt, len := 1 }
        body := ws.flatMap fun w => toBytesLE w.toNat 4 }) := by
  have h := gives_niTake (c := .directoryRequest p) (s := s) (b := fun f => f.moving && f.kind p == 4 && f.powered p)
    (t := fun _ x => x.hdr.kind == 0 || x.hdr.kind == 1) rfl (by simp [hm, hp, hk]) hd
  simpa [hgood, hws] using h

/-- A request to the target's own stack that the region guard lets through is accepted (08 R203; 12 R278). -/
theorem targetRequest_taken (hk : s.fab.kind p = 2) (hd : delivers s.fab p (s.fab.takesRequest p) q g)
    (hkind : q.packet.hdr.kind = 0 ∨ q.packet.hdr.kind = 1) (hgood : badHeader q.packet.hdr = false)
    (hin : g.inStack p q.packet.hdr.addr.toNat q.packet.hdr.bcnt.toNat = true)
    (hallow : g.regionDenied q.packet.hdr.addr.toNat q.packet.hdr.domain.toNat = false) :
    gives (.targetRequest p) s (g.acceptRequest p q.packet) := by
  have h := gives_niTake (c := .targetRequest p) (s := s) (b := fun f => f.moving && f.kind p == 2 && f.powered p)
    (t := fun f => f.takesRequest p) rfl (by simp [hm, hp, hk]) hd
  have hdata : (q.packet.hdr.kind == 5 || q.packet.hdr.kind == 8) = false := by
    rcases hkind with hkind | hkind <;> rw [hkind] <;> rfl
  dsimp only at h
  rw [hdata, hgood, hin, hallow] at h
  exact h

end

/-- Settles O37, unit by unit. -/
theorem deliveredPackets : Obligations.DeliveredPackets := by
  intro s p q g hm hp h
  refine ⟨answerConsume_taken hm hp, fun hk hd => ⟨rdDoneConsume_taken hm hp hk hd, ?chunk⟩, ?credit, ?sig, ?localMem, ?directory,
    targetRequest_taken hm hp⟩
  case chunk =>
    intro o c e i hgood ho hdom hpurpose hmain hbody
    exact Fabric.takeDone_chunk hgood ho hdom hpurpose hmain hbody ▸ rdDoneConsume_taken hm hp hk hd
  case credit =>
    intro hk hg hd hgood haddr hseq
    exact (xcreditReceive_taken hm hp hk hd).answers (Fabric.takeCredit_egress hg hgood haddr hseq)
  case sig =>
    intro hk hg hd hgood hn
    exact (sigAdd_taken hm hp hk hg hd hgood hn).answers (Fabric.updCtr_tsq_ctrs ..)
  case localMem =>
    intro hk hd h1 h5 hgood hopen
    have hgives (d : Bytes) := localMemRequest_taken hm hp d hk hd h1 h5 hgood hopen
    refine ⟨fun hw d => ((hgives d).1 hw).answers ⟨(congrArg CoreSide.lm (Fabric.enqueue_core ..)).trans (Fabric.lmWrite_lm ..),
        _, (Fabric.answer_injQ _).trans (by rw [Fabric.lmWrite_injQ]), rfl, rfl, rfl, rfl⟩,
      fun hr d => ((hgives d).2 (hr ▸ by decide)).answers ⟨congrArg CoreSide.lm (Fabric.enqueue_core ..), _, Fabric.answer_injQ _,
        rfl, rfl, rfl, rfl, rfl⟩⟩
  case directory =>
    intro hk hd hgood ws hws
    exact (directoryRequest_taken hm hp hk hd hgood hws).answers ⟨_, Fabric.answer_injQ _, rfl, rfl, rfl⟩

end Sys2Proof.Machine
end

section
/-! SUPPORT. The timers of an initiator, its held tags, and the Answer Pool of T1 (08 R195, R197; 13 R301). -/

namespace Sys2Proof.Machine

/-- The timer of a run's packet expires: its tag is held, the error counted and reported, and the packet ends
`TIMEOUT` (08 R195, R197). -/
theorem initiatorTimeout_run {s : State} {p : Nat} {o : OrtEntry} {c e i : Nat} (hm : s.fab.moving = true)
    (hk : s.fab.kind p ≠ 0) (hp : s.fab.powered p = true)
    (ho : (s.fab.ni p).ini.ort.find? (fun x => x.red == o.red && x.tag == o.tag && x.seq == o.seq && x.limit != 0 &&
      s.fab.due (x.since + x.limit * s.fab.unit) && !(s.fab.ni p).answerWaits x) = some o)
    (hrun : o.purpose = .run c e i) :
    let f0 := s.fab.reach (o.since + o.limit * s.fab.unit)
    let f1 := (f0.updNi p fun n => { n with ini := n.ini.holdTag o.tag (f0.time.fcc + 2 * o.limit * s.fab.unit) }).niErr p 5
    let f2 := f1.raiseNi p .rspTimeout (o.seq.toNat * 2 ^ 32 + o.tag.toNat * 2 ^ 20 + o.req.rport.toNat)
    gives (.initiatorTimeout p o.red o.tag o.seq) s
      ((f2.freeEntry p o).settleEnd p o.purpose o.tag o.seq .timeout (infoPort o.req.rport.toNat o.seq) none s.fab.epoch) := by
  have h := gives_when (c := .initiatorTimeout p o.red o.tag o.seq) (s := s)
    (b := fun f => f.moving && f.kind p != 0 && f.powered p) rfl (by simp [hm, hp, hk])
  dsimp only at h ⊢
  rw [ho] at h
  dsimp only at h
  rw [hrun] at h ⊢
  exact h

/-- The hold of a tag ends at its time (08 R197). -/
theorem tagHoldExpiry_due {s : State} {p : Nat} {tag : BitVec 12} {t : Nat} (hm : s.fab.moving = true)
    (hp : s.fab.powered p = true) (hheld : (s.fab.ni p).ini.heldTags.find? (fun x => x.1 == tag) = some (tag, t))
    (hdue : s.fab.due t = true) :
    gives (.tagHoldExpiry p tag) s ((s.fab.reach t).updNi p fun n =>
      { n with ini := { n.ini with heldTags := n.ini.heldTags.filter fun x => x.1 != tag } }) := by
  have h := gives_when (c := .tagHoldExpiry p tag) (s := s) (b := fun f => f.moving && f.powered p) rfl (by simp [hm, hp])
  dsimp only at h
  rw [hheld] at h
  dsimp only at h
  rwa [if_pos hdue] at h

/-- The oldest answer flit leaves the pool of a Core NI of T1 (13 R301). -/
theorem answerPoolRelease_oldest {s : State} {p : Nat} {x : BitVec 1024} {rest : List (BitVec 1024)}
    (hm : s.fab.moving = true) (hv : s.fab.variant = .t1) (hk : s.fab.kind p = 1) (hp : s.fab.powered p = true)
    (hx : (s.fab.ni p).ini.poolFlits = x :: rest) :
    gives (.answerPoolRelease p) s (s.fab.updNi p fun n =>
      { n with ini := { n.ini with poolFlits := rest, pool := n.ini.pool - 1 } }) := by
  have h := gives_when (c := .answerPoolRelease p) (s := s)
    (b := fun f => f.moving && f.variant == .t1 && f.kind p == 1 && f.powered p) rfl (by simp [hm, hv, hk, hp])
  rw [Fabric.updNi, hx] at h
  exact h

/-- Settles O39: each timer's command does its one thing. -/
theorem requestTimers : Obligations.RequestTimers := by
  refine ⟨fun s p o c e i hm hk hp ho hrun => initiatorTimeout_run hm hk hp ho hrun, fun s p tag t hm hp hheld hdue => ?hold,
    fun s p x rest hm hv hk hp hx => ?pool⟩
  case hold =>
    refine (tagHoldExpiry_due hm hp hheld hdue).answers fun x hx => ?_
    rw [Fabric.updNi_ni_self] at hx
    simpa using (List.mem_filter.1 hx).2
  case pool =>
    exact (answerPoolRelease_oldest hm hv hk hp hx).answers
      ⟨by simp, by simp, fun q hq => Fabric.updNi_ni_ne _ _ hq⟩

end Sys2Proof.Machine
end

section
/-! SUPPORT. Heads at a stop, leaf slots and stalled local outputs (03 R81; 05 R125; 09 R218, R221; 13 R314). -/

namespace Sys2Proof.Machine

/-! ## The oldest fresh head of an input VC (03 R81) -/

section
variable {f : Fabric} {st input vc i : Nat} {q : QPkt} {l : List QPkt} (hl : f.stopQ st (12 * input + vc) = l)
  (hi : l.findIdx? (fun x => x.route == .fresh) = some i) (hq : l[i]? = some q)
include hl hi hq

/-- A head that merges into no earlier packet is examined. -/
theorem Fabric.headArrives_examined (hmerge : mergeInto (hasRdu f.variant) i l = none) :
    f.headArrives st input vc =
      let r := f.examine st input vc q
      ((r.1.setStopQ st (12 * input + vc) ((r.1.stopQ st (12 * input + vc)).modify i fun y => { y with route := r.2 })).ringThrough
        st (12 * input + vc)).reap st := by
  simp only [Fabric.headArrives, hl, hi, hq, hmerge]

/-- One that merges leaves its buffer, and an acknowledgement is counted. -/
theorem Fabric.headArrives_merged {l2 : List QPkt} (hmerge : mergeInto (hasRdu f.variant) i l = some l2) :
    f.headArrives st input vc =
      let g := (f.setStopQ st (12 * input + vc) l2).oweKey st (12 * input + vc) q.held
      if q.hdr.kind == 6 then g.updStop st fun x => { x with mcMerged := x.mcMerged + 1 } else g := by
  simp only [Fabric.headArrives, hl, hi, hq, hmerge]

end

/-- Credits owed to an input, and a queue that is written, leave the count of merged acknowledgements. -/
theorem Fabric.oweKey_mcMerged (f : Fabric) (st key n x : Nat) :
    ((f.oweKey st key n).stopU x).mcMerged = (f.stopU x).mcMerged := by
  have hrx (i : Nat) (g : LinkRx → LinkRx) : ((f.updRx (.st st i) g).stopU x).mcMerged = (f.stopU x).mcMerged := by
    change ((f.updStop st fun y => { y with rx := _ }).stopU x).mcMerged = _
    rcases Decidable.em (x = st) with rfl | hne
    · rw [Fabric.updStop_stop_self]
    · rw [Fabric.updStop_stop_ne _ _ hne]
  unfold Fabric.oweKey Fabric.oweIn Fabric.owe
  split
  · split
    · rfl
    · split
      · rfl
      · exact hrx ..
  · rfl

theorem Fabric.setStopQ_mcMerged (f : Fabric) (st key x : Nat) (l : List QPkt) :
    ((f.setStopQ st key l).stopU x).mcMerged = (f.stopU x).mcMerged := by
  unfold Fabric.setStopQ
  rcases Decidable.em (x = st) with rfl | hne
  · rw [Fabric.updStop_stop_self]
  · rw [Fabric.updStop_stop_ne _ _ hne]

/-! ## The commands of a stop -/

section
variable {s : State} {st : Nat} (hm : s.fab.moving = true) (hst : st < nStops s.fab.variant)
include hm hst

theorem gives_stopHeadArrival {input vc : Nat} (hin : input < 8) (hvc : vc < 12) :
    gives (.stopHeadArrival st input vc) s (s.fab.headArrives st input vc) :=
  gives_when (s := s) (b := fun f => f.moving && st < nStops f.variant && input < 8 && vc < 12)
    (g := (·.headArrives st input vc)) rfl (by simp [hm, hst, hin, hvc])

/-- The oldest copy that waits for a leaf slot obtains the lowest free one (09 R218, R219). -/
theorem leafSlotExamine_free {input vc i slot : Nat} {q : QPkt} (hin : input < 8) (hvc : vc < 12)
    (hi : (s.fab.stopQ st (12 * input + vc)).findIdx? QPkt.wantsSlot = some i)
    (hq : (s.fab.stopQ st (12 * input + vc))[i]? = some q) (hslot : (s.fab.stopU st).freeSlot = some slot) :
    gives (.leafSlotExamine st input vc) s (s.fab.leafExamine st (12 * input + vc) i slot q) := by
  have h := gives_when (c := .leafSlotExamine st input vc) (s := s)
    (b := fun f => f.moving && st < nStops f.variant && input < 8 && vc < 12) rfl (by simp [hm, hst, hin, hvc])
  simpa only [hi, hslot, hq] using h

/-- A local output that held a flit its NI must consume past the limit: one report, and every copy held for it is
ended with `FENCED` (13 R314; log entry 47). -/
theorem sinkStall_overdue {o : Nat} {q : QPkt} (ho4 : 4 ≤ o) (ho8 : o < 8)
    (hnew : (s.fab.stopU st).obs.sinkEpisode.contains o = false) :
    let lim := 16 * max 1 (fld (s.fab.stopReg st 0x340) 15 0) * s.fab.unit
    let port := 4 * st + (o - 4)
    ((s.fab.stopU st).waitingFor o).find? (fun x => mustConsume (s.fab.kind port) x.hdr &&
      s.fab.due ((s.fab.stopU st).sinkFrom o x + lim)) = some q →
    let f1 := (s.fab.reach ((s.fab.stopU st).sinkFrom o q + lim)).raiseStop st .sinkStall (port + q.hdr.cls.toNat * 2 ^ 12)
    let f2 := f1.updStop st fun y => { y with
      vq := y.vq.mapAll fun _ k => k.map fun p => { p with route := p.route.kill o .fenced }
      obs := { y.obs with sinkEpisode := y.obs.sinkEpisode ++ [o] } }
    gives (.sinkStall st o) s ((f2.reap st).rduPump st) := by
  intro lim port hq
  have h := gives_when (c := .sinkStall st o) (s := s)
    (b := fun f => f.moving && st < nStops f.variant && 4 ≤ o && o < 8 && !(f.stopU st).obs.sinkEpisode.contains o) rfl
    (by simp only [hm, hst, ho4, ho8, hnew, decide_true, Bool.not_false, Bool.and_self])
  dsimp only at h
  rw [hq] at h
  exact h

end

/-- Settles O45: a head is examined or merges; the other two commands have one outcome each. -/
theorem stopCommands : Obligations.StopCommands := by
  intro s st input vc hm hst key l
  refine ⟨fun hin hvc i q hi hq => ?head, fun hin hvc i q slot hi hq hslot => leafSlotExamine_free hm hst hin hvc hi hq hslot,
    fun o q ho4 ho8 hnew => sinkStall_overdue hm hst ho4 ho8 hnew⟩
  have hg := gives_stopHeadArrival hm hst hin hvc
  refine ⟨fun hmerge => ?examined, fun l2 hmerge hkind => ?merged, fun l2 hmerge hkind => ?acknowledgement⟩
  case examined =>
    rw [Fabric.headArrives_examined rfl hi hq hmerge] at hg
    exact hg
  case merged =>
    rw [Fabric.headArrives_merged rfl hi hq hmerge] at hg
    dsimp only at hg
    rwa [beq_eq_false_iff_ne.2 hkind] at hg
  case acknowledgement =>
    rw [Fabric.headArrives_merged rfl hi hq hmerge] at hg
    dsimp only at hg
    rw [beq_iff_eq.2 hkind] at hg
    have hkeeps (x : Nat) : (((s.fab.setStopQ st key l2).oweKey st key q.held).stopU x).mcMerged = (s.fab.stopU x).mcMerged :=
      (Fabric.oweKey_mcMerged ..).trans (Fabric.setStopQ_mcMerged ..)
    refine hg.answers ⟨?_, fun x hx => ?_⟩
    · rw [if_pos rfl, Fabric.updStop_stop_self, ← hkeeps]
    · rw [if_pos rfl, Fabric.updStop_stop_ne _ _ hx, hkeeps]

end Sys2Proof.Machine
end

section
/-! SUPPORT. What the operations of a gateway's buffers leave of its NI (13 R303-R307). -/

namespace Sys2Proof.Machine

section
variable (f : Fabric) (p : Nat)

/-- The grant of a peer is configuration, so it stands where an NI's configuration does (13 R304). -/
theorem Fabric.peerInit_updNi {u : Ni → Ni} (h : (u (f.ni p)).cfg = (f.ni p).cfg) (node : Nat) :
    (f.updNi p u).peerInit p node = f.peerInit p node := by
  simp only [Fabric.peerInit, Fabric.niTab, Fabric.updNi_ni_self, h]

theorem Fabric.updNi_injQ {u : Ni → Ni} (h : (u (f.ni p)).inj = (f.ni p).inj) (q : Nat) :
    (f.updNi p u).injQ p q = f.injQ p q := by
  simp only [Fabric.injQ, Fabric.updNi_ni_self, h]

@[simp] theorem Fabric.enqueue_gw (q : Nat) (o : OutPkt) : ((f.enqueue p q o).ni p).gw = (f.ni p).gw := by
  simp [Fabric.enqueue, Fabric.setInjQ]

@[simp] theorem Fabric.sendX_gw (kind grant q : Nat) : ((f.sendX p kind grant q).ni p).gw = (f.ni p).gw := by
  simp [Fabric.sendX, Fabric.nextGs]

theorem xcGrant_xcAux (grant gseq : Nat) : xcGrant (xcAux grant gseq) = grant % 65536 := by
  rw [xcGrant, xcAux, BitVec.extractLsb'_append_eq_of_le (by decide), BitVec.extractLsb'_append_eq_of_le (by decide),
    BitVec.extractLsb'_eq_self]
  exact BitVec.toNat_ofNat ..

/-- One `XCREDIT` of the kind and the grant joins the queue of credits (13 R306). -/
theorem Fabric.sendX_injQ (kind grant q : Nat) : ∃ o, (f.sendX p kind grant q).injQ p 104 = f.injQ p 104 ++ [o] ∧
    o.pkt.hdr.kind = 14 ∧ o.pkt.hdr.addr = BitVec.ofNat 48 kind ∧ xcGrant o.pkt.aux = grant % 65536 :=
  ⟨{ pkt := f.xcredit p kind grant (f.destOf p q) (f.nextGs p (4 * q + kind)).1, at_ := f.time.fcc },
    (Fabric.enqueue_injQ_self ..).trans (congrArg (· ++ [_]) (Fabric.updNi_injQ _ _ rfl _)), rfl, rfl, xcGrant_xcAux ..⟩

/-- A request that leaves gives its flits back, whoever is told of it (13 R303). -/
theorem Fabric.egDone_gw (x : Packet) :
    ((f.egDone p x).ni p).gw = { (f.ni p).gw with egUsed := (f.ni p).gw.egUsed - x.hdr.len.toNat } := by
  unfold Fabric.egDone
  split
  · simp
  · simp [Fabric.egReturn]

/-- Time that passes at NIs leaves what waits for injection. -/
theorem Fabric.niPass_injQ (n p' q : Nat) : (f.niPass n p').injQ p q = f.injQ p q := by
  rcases Decidable.em (p = p') with rfl | hne
  · simp [Fabric.niPass, Fabric.injQ]
  · simp [Fabric.niPass, Fabric.injQ, Fabric.updNi_ni_ne _ _ hne]

theorem Fabric.pass_injQ (n q : Nat) : (f.pass n).injQ p q = f.injQ p q := by
  unfold Fabric.pass
  split
  · rfl
  · extract_lets ports f1
    have h1 : f1.injQ p q = f.injQ p q :=
      Fabric.forEach_keeps (·.injQ p q) (fun g p' => g.niPass_injQ p n p' q) _ ports
    exact (Fabric.forEach_keeps (·.injQ p q) (by intros; rfl) f1 _).trans h1

theorem Fabric.reach_injQ (t q : Nat) : (f.reach t).injQ p q = f.injQ p q := by
  unfold Fabric.reach
  dsimp only
  split
  · rfl
  · exact f.pass_injQ p _ q

end

end Sys2Proof.Machine
end

section
/-! SUPPORT. What leaves through a gateway, what the transport could not deliver, and a gateway's stall
(04 R98; 13 R303, R304, R307, R314). -/

namespace Sys2Proof.Machine

/-- The answer to a failed read or write names the request and its status (03 R80; 04 R98). -/
theorem Fabric.niRefuse_injQ (f : Fabric) (p : Nat) {h : Header} (hkind : h.kind = 0 ∨ h.kind = 1) :
    ∃ o, (f.niRefuse p h .timeout).injQ p 101 = f.injQ p 101 ++ [o] ∧
      o.pkt.hdr.status = BitVec.ofNat 4 (statusCode .timeout) ∧ o.pkt.hdr.dest = h.src ∧ o.pkt.hdr.tag = h.tag ∧
      o.pkt.hdr.seq = h.seq := by
  obtain ⟨k, hk⟩ : ∃ k, answerKind h.kind.toNat = some k := by
    rcases hkind with hkind | hkind <;> rw [hkind] <;> exact ⟨_, rfl⟩
  have hrefusal : refusal h .timeout (f.node p) p = some
      { hdr := answerHdr h k .timeout (f.node p) p, aux := if k == 6 then mcAckAux 0 0 (BitVec.allOnes 26) else 0 } := by
    rw [refusal, hk]
  have hrefuse : f.niRefuse p h .timeout = f.answer p _ := congrArg (f.answer? p) hrefusal
  rw [hrefuse]
  exact ⟨_, Fabric.answer_injQ _, rfl, rfl, rfl, rfl⟩

section
variable {s : State} {p : Nat} (hm : s.fab.moving = true) (hk : s.fab.kind p = 3) (hp : s.fab.powered p = true)
include hm hk hp

/-- A request for a peer joins the egress buffer with its time, its flits charged (13 R303, R307). -/
theorem gwEgress_held {q : QPkt} {g : Fabric} (hd : delivers s.fab p (fun x => x.hdr.cls == 5 && x.hdr.kind != 14) q g)
    (hreq : isFwdReq q.packet.hdr = true) (hgood : badPacket q.packet = false)
    (hpeer : (g.peerInit p (nodeOf q.packet.hdr.dest)).isSome = true) (hstall : (g.ni p).gw.stallEpisode = false) :
    gives (.gwEgress p) s ((g.updNi p fun y => { y with gw := { y.gw with egUsed := y.gw.egUsed + q.packet.hdr.len.toNat } }).updNi p
      fun y => { y with gw := { y.gw with egress := y.gw.egress ++ [(q.packet, g.time.fcc)] } }) := by
  have h := gives_niTake (c := .gwEgress p) (s := s) (b := fun f => f.moving && f.kind p == 3 && f.powered p)
    (t := fun _ x => x.hdr.cls == 5 && x.hdr.kind != 14) rfl (by simp [hm, hk, hp]) hd
  have hnone : (g.peerInit p (nodeOf q.packet.hdr.dest)).isNone = false := by
    rw [← Option.not_isSome, hpeer]; rfl
  dsimp only at h
  rw [hreq, hgood, hstall, Fabric.peerInit_updNi _ _ rfl, hnone] at h
  exact h

/-- The transport takes first what waits for it alone (13 R304). -/
theorem gwTransportHandoff_answer {x : Packet × Nat} {rest : List (Packet × Nat)}
    (hx : (s.fab.ni p).gw.toTransport = x :: rest) :
    gives (.gwTransportHandoff p) s ((s.fab.updNi p fun n => { n with gw := { n.gw with toTransport := rest } }).updNi p
      fun n => { n with gw := { n.gw with stallEpisode := false } }) := by
  have h := gives_when (c := .gwTransportHandoff p) (s := s) (b := fun f => f.moving && f.kind p == 3 && f.powered p) rfl
    (by simp [hm, hk, hp])
  dsimp only at h
  rw [hx] at h
  exact h

/-- Then it takes the oldest request that may go, or the gateway refuses that one (13 R304). -/
theorem gwTransportHandoff_request {x : Packet} {t : Nat} {rest : List (Packet × Nat)}
    (hnone : (s.fab.ni p).gw.toTransport = [])
    (hnext : s.fab.egNext p (s.fab.ni p).gw.egress = some ((x, t), rest)) :
    let f1 := s.fab.updNi p fun n => { n with gw := { n.gw with egress := rest } }
    gives (.gwTransportHandoff p) s (if (s.fab.peerInit p (nodeOf x.hdr.dest)).isNone then f1.egRefuse p x .unreachable
      else ((f1.updNi p fun n => { n with gw := { n.gw with
        peerCharged := n.gw.peerCharged.upd (nodeOf x.hdr.dest) 0 (· + x.hdr.len.toNat) } }).egDone p x).updNi p
          fun n => { n with gw := { n.gw with stallEpisode := false } }) := by
  have h := gives_when (c := .gwTransportHandoff p) (s := s) (b := fun f => f.moving && f.kind p == 3 && f.powered p) rfl
    (by simp [hm, hk, hp])
  dsimp only at h
  rw [hnone] at h
  dsimp only at h
  rw [hnext] at h
  exact h

theorem gives_transportFailure {r : Packet} (hreq : isFwdReq r.hdr = true) :
    gives (.transportFailure p r) s (s.fab.egAnswer p r .timeout) :=
  gives_when (c := .transportFailure p r) (b := fun f => f.moving && f.kind p == 3 && f.powered p && isFwdReq r.hdr)
    (g := (·.egAnswer p r .timeout)) rfl (by simp [hm, hk, hp, hreq])

/-- The transport has left the oldest packet for the limit: answers held are dropped, requests answered `TIMEOUT`
(13 R314; log entry 48). -/
theorem gwStall_overdue {t0 : Nat} (hnew : (s.fab.ni p).gw.stallEpisode = false) (hold : s.fab.oldestEgress p = some t0)
    (hdue : s.fab.due (t0 + s.fab.localTmo p * s.fab.unit) = true) :
    let f1 := ((s.fab.reach (t0 + s.fab.localTmo p * s.fab.unit)).updNi p fun n => { n with gw := { n.gw with
      stallEpisode := true, egress := []
      toTransport := n.gw.toTransport.filter fun x => !isAnswerKind x.1.hdr.kind.toNat } }).raiseNi p .gwStall p
    let lost := (s.fab.ni p).gw.toTransport.filter fun x => isAnswerKind x.1.hdr.kind.toNat
    let f2 := lost.foldl (fun h x => h.raiseNi p .rspDrop (infoDrop x.1.hdr .timeout)) f1
    gives (.gwStall p) s ((s.fab.ni p).gw.egress.foldl (fun h x => h.egRefuse p x.1 .timeout) f2) := by
  have h := gives_when (c := .gwStall p) (s := s)
    (b := fun f => f.moving && f.kind p == 3 && f.powered p && !(f.ni p).gw.stallEpisode) rfl (by simp [hm, hk, hp, hnew])
  dsimp only at h
  rw [hold] at h
  dsimp only at h
  rw [hdue] at h
  exact h

end

/-- What a gateway answers for a request that was not delivered (04 R98; log entry 44). -/
theorem Fabric.egAnswer_refused (f : Fabric) (p : Nat) {r : Packet} (st : Status) (h7 : r.hdr.kind ≠ 7) (h4 : r.hdr.kind ≠ 4) :
    f.egAnswer p r st = f.niRefuse p r.hdr st := by
  simp only [Fabric.egAnswer, beq_eq_false_iff_ne.2 h7, beq_eq_false_iff_ne.2 h4]
  rfl

theorem Fabric.egAnswer_signal (f : Fabric) (p : Nat) {r : Packet} (st : Status) (h4 : r.hdr.kind = 4) :
    f.egAnswer p r st = (f.niErr p 3).raiseNi p .sigDrop (infoDrop r.hdr st) := by
  simp only [Fabric.egAnswer, h4]
  rfl

/-- Settles O50: each command has one outcome for each state of the buffers (log entries 44, 48). -/
theorem gatewayEgress : Obligations.GatewayEgress := by
  intro s p ⟨hm, hk, hp⟩
  refine ⟨fun q g hd hreq hgood hpeer hstall => ?held, fun x rest hx => ?answer, fun x t rest hnone hnext => ?request,
    fun r hreq => ?failure, fun t0 hnew hold hdue => gwStall_overdue hm hk hp hnew hold hdue⟩
  case held =>
    exact (gwEgress_held hm hk hp hd hreq hgood hpeer hstall).answers ⟨by simp, by simp, fun x hx => by
      rw [Fabric.updNi_ni_ne _ _ hx, Fabric.updNi_ni_ne _ _ hx]⟩
  case answer =>
    exact (gwTransportHandoff_answer hm hk hp hx).answers ⟨by simp, fun y hy => by
      rw [Fabric.updNi_ni_ne _ _ hy, Fabric.updNi_ni_ne _ _ hy]⟩
  case request =>
    have h := gwTransportHandoff_request hm hk hp hnone hnext
    dsimp only at h
    refine ⟨fun hpeer => ?_, fun k hpeer => ?_⟩
    · rwa [hpeer] at h
    · rw [hpeer] at h
      exact h.answers (by simp [Fabric.egDone_gw])
  case failure =>
    have h := gives_transportFailure hm hk hp hreq
    have hrefused (h7 : r.hdr.kind ≠ 7) (h4 : r.hdr.kind ≠ 4) := Fabric.egAnswer_refused s.fab p .timeout h7 h4 ▸ h
    refine ⟨hrefused, fun hkind => ?_, fun h4 => Fabric.egAnswer_signal s.fab p .timeout h4 ▸ h⟩
    refine (hrefused ?_ ?_).answers (Fabric.niRefuse_injQ s.fab p hkind)
    all_goals rcases hkind with hkind | hkind <;> rw [hkind] <;> decide

end Sys2Proof.Machine
end

section
/-! SUPPORT. What arrives at a gateway from its transport and from its node, and the credits and tokens it
exchanges (04 R100; 10 R258; 13 R304-R307). -/

namespace Sys2Proof.Machine

/-! ## From the transport (04 R100; 13 R307) -/

section
variable {f : Fabric} {p : Nat} {x : Packet}

/-- A read or a write that its grant covers and nothing turns away is metered and queued for its port. -/
theorem Fabric.ingressRequest_queued :
    let node := nodeOf x.hdr.src
    let n := x.hdr.len.toNat
    let dest := portOf x.hdr.dest
    let f1 := f.updNi p fun y => { y with gw := { y.gw with
      inFrom := y.gw.inFrom.put node ((f.ni p).gw.inFrom.get node 0 + n), inUsed := y.gw.inUsed + n } }
    let col := f1.preview p x.hdr
    (f.ni p).gw.inFrom.get node 0 + n ≤ (f.peerInit p node).getD 0 → f1.crawl = false → (f.ni p).pwr.fence = false →
    (f.ni p).pwr.dfence.getLsbD x.hdr.domain.toNat = false → badPacket x = false → nodeOf x.hdr.dest = f.node p →
    dest < nPorts f.variant → col ≠ 2 → (x.hdr.kind = 0 ∨ x.hdr.kind = 1) → f.kind dest ≠ 1 →
    f.ingressRequest p x = (f1.chargeMeter p x.hdr col).enqueue p (32 + x.hdr.domain.toNat)
      { pkt := { x with hdr := { x.hdr with rport := BitVec.ofNat 10 dest, colour := BitVec.ofNat 2 col } } } := by
  intro node n dest f1 col hgrant hcrawl hfence hdfence hgood hnode hdest hcol hkind hcore
  have hpwr : (f1.ni p).pwr = (f.ni p).pwr := by simp [f1]
  have hopen : ¬(f1.crawl || (f1.ni p).pwr.fence || (f1.ni p).pwr.dfence.getLsbD x.hdr.domain.toNat) = true := by
    rw [hpwr, hcrawl, hfence, hdfence]; decide
  have hsound : ¬badPacket x = true := by rw [hgood]; decide
  have hhere : ¬(nodeOf x.hdr.dest != f.node p || decide (dest ≥ nPorts f.variant)) = true := by simp [hnode, hdest]
  have hcolour : ¬(col == 2) = true := by simpa using hcol
  have hmc : ¬(x.hdr.kind == 5) = true := by rcases hkind with h | h <;> rw [h] <;> decide
  have hred : ¬(x.hdr.kind == 7) = true := by rcases hkind with h | h <;> rw [h] <;> decide
  have hport : ¬((x.hdr.kind == 0 || x.hdr.kind == 1) && f.kind dest == 1) = true := by simp [hcore]
  exact (if_neg (Nat.not_lt.2 hgrant)).trans <| (if_neg hopen).trans <| (if_neg hsound).trans <| (if_neg hhere).trans <|
    (if_neg hcolour).trans <| (if_neg hmc).trans <| (if_neg hred).trans <| if_neg hport

/-- An answer that the buffer has room for is charged there and queued for its port. -/
theorem Fabric.ingressAnswer_queued (hroom : (f.ni p).gw.inAnswers + x.hdr.len.toNat ≤ 2048) (hgood : badPacket x = false)
    (hcls : x.hdr.cls = 5) (hnode : nodeOf x.hdr.dest = f.node p) (hdest : portOf x.hdr.dest < nPorts f.variant)
    (hkind : x.hdr.kind ≠ 8) :
    f.ingressAnswer p x =
      (f.updNi p fun y => { y with gw := { y.gw with inAnswers := y.gw.inAnswers + x.hdr.len.toNat } }).enqueue p 101
        { pkt := { x with hdr := { x.hdr with rport := BitVec.ofNat 10 (portOf x.hdr.dest) } }, need := x.hdr.len.toNat } := by
  have hsound : ¬(badPacket x || x.hdr.cls != 5) = true := by simp [hgood, hcls]
  have hhere : ¬(nodeOf x.hdr.dest != f.node p || decide (portOf x.hdr.dest ≥ nPorts f.variant) ||
      (x.hdr.kind == 8 && !hasRdu f.variant)) = true := by
    rw [beq_eq_false_iff_ne.2 hkind]; simp [hnode, hdest]
  have hport : ¬(x.hdr.kind == 8) = true := by simpa using hkind
  exact (if_neg (Nat.not_lt.2 hroom)).trans <| (if_neg hsound).trans <| (if_neg hhere).trans <| if_neg hport

end

/-! ## Credits and tokens (13 R304-R306) -/

/-- Tokens that go back are the gateway's no longer, and one `XCREDIT` of kind 2 says how many. -/
theorem Fabric.tokensReturned (f : Fabric) (p t n target : Nat) :
    let h := ((f.reach t).sendX p 2 n target).updNi p fun y => { y with gw := { y.gw with tokens := y.gw.tokens.del target } }
    (h.ni p).gw.tokens.find? target = none ∧ ∃ o, h.injQ p 104 = f.injQ p 104 ++ [o] ∧ o.pkt.hdr.kind = 14 ∧
      fld o.pkt.hdr.addr 1 0 = 2 ∧ xcGrant o.pkt.aux = n % 65536 := by
  intro h
  obtain ⟨o, hq, hkind, haddr, hgrant⟩ := (f.reach t).sendX_injQ p 2 n target
  rw [Fabric.reach_injQ] at hq
  exact ⟨by simp [h], o, (Fabric.updNi_injQ _ _ rfl _).trans hq, hkind, by rw [haddr]; rfl, hgrant⟩

/-- Flits that a peer gives back in sequence are no longer charged to it. -/
theorem Fabric.takeCredit_peer {f : Fabric} {p : Nat} {x : Packet} (hkind : f.kind p = 3) (haddr : x.hdr.addr = 1)
    (hgood : badHeader x.hdr = false)
    (hseq : xcGseq x.aux = (f.ni p).gseq.expect.get (4 * (nodeOf x.hdr.src * 1024) + 1) 1) :
    ((f.takeCredit p x).ni p).gw = { (f.ni p).gw with
      peerCharged := (f.ni p).gw.peerCharged.upd (nodeOf x.hdr.src) 0 (· - xcGrant x.aux) } := by
  have hkind' (u : Ni → Ni) : (f.updNi p u).kind p = 3 := hkind
  simp [Fabric.takeCredit, Fabric.applyGrant, xcSender, hgood, haddr, ← hseq, hkind', fld, bits]

section
variable {s : State} {p : Nat} (hm : s.fab.moving = true) (hk : s.fab.kind p = 3) (hp : s.fab.powered p = true)
include hm hk hp

/-- What the transport offers is looked at where no turn holds the gateway; the last refusal is forgotten. -/
theorem gives_gwIngress {x : Packet} {f : Fabric} (hq : (s.fab.ni p).pwr.quiesce = false)
    (hf : (s.fab.updNi p fun n => { n with gw := { n.gw with refused := none } }) = f) :
    gives (.gwIngress p x) s (if !Header.checks x.hdr then f.raiseNi p .hdrCheck (infoIcv 0 0 0)
      else if isFwdReq x.hdr then f.ingressRequest p x
      else if isAnswerKind x.hdr.kind.toNat then f.ingressAnswer p x
      else if x.hdr.kind == 14 && x.hdr.cls == 5 then f
      else f.gwAnswer p x.hdr .malformed) :=
  hf ▸ gives_when (c := .gwIngress p x) (s := s)
    (b := fun f => f.moving && f.kind p == 3 && f.powered p && !(f.ni p).pwr.quiesce) rfl (by simp [hm, hk, hp, hq])

/-- The answer to a chunk that one child is recorded for goes to that child's gateway (10 R258). -/
theorem gwRdDoneFanout_child {q : QPkt} {g : Fabric} {o : OrtEntry} {node : Nat} {tree : BitVec 12}
    (hd : delivers s.fab p (fun x => x.hdr.kind == 8 && x.hdr.cls == 3) q g) (hgood : badPacket q.packet = false)
    (ho : (g.ni p).ini.ort.filter (fun y => y.matches q.packet.hdr) = [o]) (hdom : o.dom = q.packet.hdr.domain)
    (hchild : o.purpose = .rdRelay node tree) :
    let f1 := (g.consumeEntry p o q.packet).toTransport p { q.packet with
      hdr := { q.packet.hdr with cls := 5, dest := BitVec.ofNat 28 (node * 1024), src := g.srcOf p, group := tree, tag := tree } }
    gives (.gwRdDoneFanout p) s (if (redOf q.packet.aux).rop == 7 then f1
      else f1.redConsumed p q.packet.hdr.tag.toNat q.packet.hdr.seq.toNat) := by
  have h := gives_niTake (c := .gwRdDoneFanout p) (s := s) (b := fun f => f.moving && f.kind p == 3 && f.powered p)
    (t := fun _ x => x.hdr.kind == 8 && x.hdr.cls == 3) rfl (by simp [hm, hk, hp]) hd
  simpa [hgood, ho, hdom, hchild] using h

theorem xcreditReceive_transport {x : Packet} (h14 : x.hdr.kind = 14) (haddr : fld x.hdr.addr 1 0 = 1) :
    gives (.xcreditReceive p (some x)) s (s.fab.takeCredit p x) := by
  have h := gives_when (c := .xcreditReceive p (some x)) (s := s) (b := fun f => f.moving && f.kind p != 0 && f.powered p) rfl
    (by simp [hm, hk, hp])
  dsimp only at h
  rwa [Fabric.when_of _ (by simp [hk, h14, haddr])] at h

theorem xcreditReceive_node {q : QPkt} {g : Fabric} (hd : delivers s.fab p (fun x => x.hdr.kind == 14) q g) :
    gives (.xcreditReceive p none) s (g.takeCredit p q.packet) :=
  gives_niTake (b := fun f => f.moving && f.kind p != 0 && f.powered p) (t := fun _ x => x.hdr.kind == 14)
    (k := fun f a _ => f.takeCredit p a) rfl (by simp [hm, hk, hp]) hd

/-- Tokens that no queued request wants go back once their time is over (13 R305). -/
theorem tokenIdleReturn_due {target : Nat} (htok : 0 < (s.fab.ni p).gw.tokens.get target 0)
    (hwanted : ((s.fab.ni p).inj.queues.any fun q => q.2.any fun o => o.purpose.isNone && isFwdReq o.pkt.hdr &&
      o.pkt.hdr.rport.toNat == target) = false) :
    let t := (s.fab.ni p).gw.tokLast.get target 0 + max 1 (fld (s.fab.niReg p 0xA00) 15 0) * s.fab.unit
    s.fab.due t = true → gives (.tokenIdleReturn p target) s
      (((s.fab.reach t).sendX p 2 ((s.fab.ni p).gw.tokens.get target 0) target).updNi p fun y =>
        { y with gw := { y.gw with tokens := y.gw.tokens.del target } }) := by
  intro t hdue
  have h := gives_when (c := .tokenIdleReturn p target) (s := s) (b := fun f => f.moving && f.kind p == 3 && f.powered p) rfl
    (by simp [hm, hk, hp])
  dsimp only at h
  rwa [hwanted, hdue, beq_eq_false_iff_ne.2 (Nat.ne_of_gt htok)] at h

end

/-- Settles O51, command by command. -/
theorem gatewayIngress : Obligations.GatewayIngress := by
  intro s p ⟨hm, hk, hp⟩
  refine ⟨fun x hquiet hcls => ?transport, fun q g o hd hgood ho hdom node tree hchild =>
      gwRdDoneFanout_child hm hk hp hd hgood ho hdom hchild,
    fun x h14 haddr => xcreditReceive_transport hm hk hp h14 haddr, fun q g hd => xcreditReceive_node hm hk hp hd,
    fun x h14 haddr hgood hseq => ?credit, fun target htok hwanted hdue => ?tokens⟩
  case transport =>
    intro f
    have h := gives_gwIngress (x := x) (f := f) hm hk hp hquiet rfl
    refine ⟨fun hbad => ?bad, fun hgood hreq => ?request, fun hgood hreq hanswer => ?answer⟩
    case bad => simpa [hbad] using h
    case request =>
      have hr : gives (.gwIngress p x) s (f.ingressRequest p x) := by simpa [hgood, hreq] using h
      refine ⟨hr, fun hgrant hcrawl hfence hdfence hsound hnode hdest hcol hkind hcore => ?_⟩
      exact Fabric.ingressRequest_queued hgrant hcrawl hfence hdfence hsound hnode hdest hcol hkind hcore ▸ hr
    case answer =>
      have ha : gives (.gwIngress p x) s (f.ingressAnswer p x) := by simpa [hgood, hreq, hanswer] using h
      refine ⟨ha, fun hroom hsound hnode hdest hkind => ha.answers ?_⟩
      rw [Fabric.ingressAnswer_queued hroom hsound hcls hnode hdest hkind]
      exact ⟨by simp, _, (Fabric.enqueue_injQ_self ..).trans (congrArg (· ++ [_]) (Fabric.updNi_injQ _ _ rfl _)), rfl, rfl, rfl⟩
  case credit =>
    have haddr' : fld x.hdr.addr 1 0 = 1 := by rw [haddr]; rfl
    exact (xcreditReceive_transport hm hk hp h14 haddr').answers (by simp [Fabric.takeCredit_peer hk haddr hgood hseq])
  case tokens => exact (tokenIdleReturn_due hm hk hp htok hwanted hdue).answers (Fabric.tokensReturned ..)

end Sys2Proof.Machine
end

section
/-! SUPPORT. The code of a quarter: both its checks are sums over the bits, and no two bits have the same column
(05 R111, R112). -/

namespace Sys2Proof.Machine

/-! ## Sums over the bits of a word -/

section
variable {α : Type} {op : α → α → α}

/-- The sum of sums, for an operation under which sums of two may be taken in any order. -/
theorem foldl_range_op (hop : ∀ a b c d, op (op a b) (op c d) = op (op a c) (op b d)) (u v : Nat → α) (n : Nat) (a b : α) :
    (List.range n).foldl (fun x j => op x (op (u j) (v j))) (op a b) =
      op ((List.range n).foldl (fun x j => op x (u j)) a) ((List.range n).foldl (fun x j => op x (v j)) b) := by
  induction n with
  | zero => rfl
  | succ n ih => simp only [List.range_succ, List.foldl_append, List.foldl_cons, List.foldl_nil, ih, hop]

/-- A sum of which at most term `i` is not the neutral element. -/
theorem foldl_range_single {z : α} (hl : ∀ a, op z a = a) (hr : ∀ a, op a z = a) {u : Nat → α} {i : Nat}
    (hu : ∀ j, j ≠ i → u j = z) (n : Nat) :
    (List.range n).foldl (fun x j => op x (u j)) z = if i < n then u i else z := by
  induction n with
  | zero => rfl
  | succ n ih =>
    simp only [List.range_succ, List.foldl_append, List.foldl_cons, List.foldl_nil, ih]
    rcases Nat.lt_trichotomy i n with hlt | rfl | hgt
    · rw [if_pos hlt, if_pos (by omega), hu n (by omega), hr]
    · rw [if_neg (by omega), if_pos (by omega), hl]
    · rw [if_neg (by omega), if_neg (by omega), hu n (by omega), hr]

end

theorem getLsbD_two_pow (w i j : Nat) : (BitVec.ofNat w (2 ^ i)).getLsbD j = (decide (j < w) && decide (i = j)) := by
  rw [BitVec.getLsbD_ofNat, Nat.testBit_two_pow]

theorem extract_two_pow {w s n : Nat} (h : s + n ≤ w) (i : Nat) :
    (BitVec.ofNat w (2 ^ i)).extractLsb' s n = if s ≤ i then BitVec.ofNat n (2 ^ (i - s)) else 0#n := by
  refine BitVec.eq_of_getLsbD_eq fun j hj => ?_
  rw [BitVec.getLsbD_extractLsb', getLsbD_two_pow]
  split
  next hi =>
    rw [getLsbD_two_pow, Bool.eq_iff_iff]
    simp only [Bool.and_eq_true, decide_eq_true_eq]
    omega
  next hi => rw [decide_eq_false (show ¬ i = s + j by omega), Bool.and_false, Bool.and_false, BitVec.getLsbD_zero]

/-! ## The parity -/

section
variable {v w : Nat}

theorem parity_eq (q : BitVec w) : parity q = (List.range w).foldl (fun a j => xor a (q.getLsbD j)) false := rfl

theorem parity_xor (q r : BitVec w) : parity (q ^^^ r) = xor (parity q) (parity r) := by
  simp only [parity_eq, BitVec.getLsbD_xor]
  exact foldl_range_op (by decide) q.getLsbD r.getLsbD w false false

theorem parity_append (q : BitVec v) (r : BitVec w) : parity (q ++ r) = xor (parity r) (parity q) := by
  have hlow : (List.range w).foldl (fun a j => xor a ((q ++ r).getLsbD j)) false = parity r :=
    List.foldl_ext _ _ _ fun a j hj => by rw [BitVec.getLsbD_append, if_pos (List.mem_range.1 hj)]
  have hhigh := foldl_range_op (op := xor) (by decide) (fun _ => false) q.getLsbD v (parity r) false
  simp only [Bool.false_xor, Bool.xor_false, List.foldl_fixed, ← parity_eq] at hhigh
  simp only [parity_eq (q ++ r), Nat.add_comm v, List.range_add, List.foldl_append, hlow, List.foldl_map, ← hhigh]
  simp [BitVec.getLsbD_append]

theorem parity_bool (b : Bool) : parity (BitVec.ofNat 1 (b2n b)) = b := by cases b <;> rfl

theorem parity_two_pow {i : Nat} (hi : i < w) : parity (BitVec.ofNat w (2 ^ i)) = true := by
  have h := foldl_range_single (op := xor) (z := false) (by decide) (by decide) (u := (BitVec.ofNat w (2 ^ i)).getLsbD)
    (fun j hj => by rw [getLsbD_two_pow, decide_eq_false (Ne.symm hj), Bool.and_false]) w
  rw [parity_eq, h, if_pos hi, getLsbD_two_pow, decide_eq_true hi, decide_eq_true rfl, Bool.and_self]

end

/-! ## The columns (R111) -/

theorem fecColumns_length : fecColumns.length = 272 := by decide +kernel

/-- The columns of the 281 bits of a quarter that its syndrome counts, and 0 for bit 281, which only the parity counts. -/
def quarterColumns : List Nat := fecColumns ++ ((List.range 9).map (2 ^ ·) ++ [0])

def quarterColumn (i : Nat) : Nat := quarterColumns.getD i 0

theorem mem_fecColumns {n : Nat} (h : n ∈ fecColumns) : 3 ≤ n ∧ n < 282 ∧ ∀ k < 9, n ≠ 2 ^ k := by
  simp only [fecColumns, List.mem_filter, List.mem_map, List.mem_range, isPow2, Bool.not_eq_true', List.any_eq_false,
    beq_iff_eq] at h
  obtain ⟨⟨a, ha, rfl⟩, hpow⟩ := h
  exact ⟨by omega, by omega, hpow⟩

theorem quarterColumns_length : quarterColumns.length = 282 := by simp [quarterColumns, fecColumns_length]

theorem quarterColumns_nodup : quarterColumns.Nodup := by
  have hcovered : fecColumns.Nodup := (List.nodup_range.map (add_left_injective 3)).filter _
  refine List.nodup_append.2 ⟨hcovered, by decide, fun a ha b hb => ?_⟩
  obtain ⟨hlow, -, hpow⟩ := mem_fecColumns ha
  rcases List.mem_append.1 hb with hb | hb
  · obtain ⟨k, hk, rfl⟩ := List.mem_map.1 hb
    exact hpow k (List.mem_range.1 hk)
  · rw [List.mem_singleton.1 hb]
    omega

section
variable {i j : Nat}

/-- No two bits have the same column. -/
theorem quarterColumn_inj (hi : i < 282) (hj : j < 282) : quarterColumn i = quarterColumn j ↔ i = j := by
  rw [← quarterColumns_length] at hi hj
  rw [quarterColumn, quarterColumn, List.getD_eq_getElem _ _ hi, List.getD_eq_getElem _ _ hj,
    quarterColumns_nodup.getElem_inj_iff]

theorem quarterColumn_covered (hi : i < 272) : quarterColumn i = fecColumns.getD i 0 :=
  List.getD_append _ _ _ _ (fecColumns_length ▸ hi)

theorem quarterColumn_check {k : Nat} (hk : k < 9) : quarterColumn (272 + k) = 2 ^ k := by
  rw [quarterColumn, quarterColumns, List.getD_append_right _ _ _ _ (by rw [fecColumns_length]; omega), fecColumns_length,
    Nat.add_sub_cancel_left]
  decide +revert

theorem quarterColumn_parity : quarterColumn 281 = 0 := by
  rw [quarterColumn, quarterColumns, List.getD_append_right _ _ _ _ (by rw [fecColumns_length]; omega), fecColumns_length]
  rfl

theorem quarterColumn_lt (hi : i < 272) : quarterColumn i < 2 ^ 9 := by
  rw [quarterColumn_covered hi, List.getD_eq_getElem _ _ (fecColumns_length ▸ hi)]
  have hlt := (mem_fecColumns (List.getElem_mem (fecColumns_length ▸ hi))).2.1
  omega

end

/-! ## The syndrome (R112) -/

theorem zip_fecColumns : (List.range 272).zip fecColumns = (List.range 272).map fun j => (j, quarterColumn j) := by
  refine List.ext_getElem (by simp [fecColumns_length]) fun j h _ => ?_
  have hj : j < 272 := by simpa [fecColumns_length] using h
  simp [quarterColumn_covered hj, fecColumns_length, hj]

/-- What a bit of a quarter adds to its syndrome. -/
def fecTerm (q : BitVec 272) (j : Nat) : Nat := if q.getLsbD j then quarterColumn j else 0

theorem fecSyn_eq (q : BitVec 272) : fecSyn q = (List.range 272).foldl (fun a j => a ^^^ fecTerm q j) 0 := by
  rw [fecSyn, zip_fecColumns, List.foldl_map]
  refine List.foldl_ext _ _ _ fun a j _ => ?_
  unfold fecTerm
  split
  · rfl
  · exact (Nat.xor_zero a).symm

theorem fecTerm_xor (q r : BitVec 272) (j : Nat) : fecTerm (q ^^^ r) j = fecTerm q j ^^^ fecTerm r j := by
  unfold fecTerm
  rw [BitVec.getLsbD_xor]
  cases q.getLsbD j <;> cases r.getLsbD j <;> simp

theorem fecSyn_xor (q r : BitVec 272) : fecSyn (q ^^^ r) = fecSyn q ^^^ fecSyn r := by
  have h := foldl_range_op (op := (· ^^^ ·)) (fun a b c d => by ac_rfl) (fecTerm q) (fecTerm r) 272 0 0
  simpa only [fecSyn_eq, fecTerm_xor, Nat.xor_self] using h

theorem fecSyn_lt (q : BitVec 272) : fecSyn q < 2 ^ 9 := by
  rw [fecSyn_eq]
  refine List.foldlRecOn (motive := (· < 2 ^ 9)) _ _ (by decide) fun a ha j hj => Nat.xor_lt_two_pow ha ?_
  unfold fecTerm
  split
  · exact quarterColumn_lt (List.mem_range.1 hj)
  · decide

theorem fecSyn_two_pow (i : Nat) : fecSyn (BitVec.ofNat 272 (2 ^ i)) = if i < 272 then quarterColumn i else 0 := by
  have hterm (j : Nat) : fecTerm (BitVec.ofNat 272 (2 ^ i)) j = if j < 272 ∧ i = j then quarterColumn j else 0 := by
    simp only [fecTerm, getLsbD_two_pow, Bool.and_eq_true, decide_eq_true_eq]
  have h := foldl_range_single (op := (· ^^^ ·)) (z := 0) Nat.zero_xor Nat.xor_zero (u := fecTerm (BitVec.ofNat 272 (2 ^ i)))
    (fun j hj => by rw [hterm, if_neg fun h => hj h.2.symm]) 272
  rw [fecSyn_eq, h]
  split
  next hi => rw [hterm, if_pos ⟨hi, rfl⟩]
  next => rfl

/-- The syndrome that the decoder works out for a quarter. -/
def syndrome (b : BitVec 282) : Nat := fecSyn (b.extractLsb' 0 272) ^^^ (b.extractLsb' 272 9).toNat

theorem syndrome_xor (a b : BitVec 282) : syndrome (a ^^^ b) = syndrome a ^^^ syndrome b := by
  simp only [syndrome, BitVec.extractLsb'_xor, fecSyn_xor, BitVec.toNat_xor]
  ac_rfl

/-- A word with one bit has that bit's column for its syndrome. -/
theorem syndrome_two_pow {i : Nat} (hi : i < 282) : syndrome (BitVec.ofNat 282 (2 ^ i)) = quarterColumn i := by
  rw [syndrome, extract_two_pow (by decide), extract_two_pow (by decide), if_pos i.zero_le, Nat.sub_zero, fecSyn_two_pow]
  split
  next hc => rw [if_neg (by omega), BitVec.toNat_zero, Nat.xor_zero]
  next hc =>
    obtain ⟨k, rfl⟩ := Nat.exists_eq_add_of_le (Nat.le_of_not_lt hc)
    rw [if_pos (by omega), Nat.add_sub_cancel_left, BitVec.toNat_ofNat, Nat.zero_xor]
    rcases Nat.lt_or_ge k 9 with hk | hk
    · rw [quarterColumn_check hk, Nat.mod_eq_of_lt (Nat.pow_lt_pow_right (by decide) hk)]
    · obtain rfl : k = 9 := by omega
      rw [quarterColumn_parity, Nat.mod_self]

/-- The bit that a syndrome other than 0 points at. -/
def bitOfSyndrome (s : Nat) : FecOut :=
  match (List.range 9).find? fun k => s == 2 ^ k with
  | some k => .flip (272 + k)
  | none =>
    match ((List.range 272).zip fecColumns).find? fun e => e.2 == s with
    | some e => .flip e.1
    | none => .bad

theorem bitOfSyndrome_column {i : Nat} (hi : i < 281) : bitOfSyndrome (quarterColumn i) = .flip i := by
  unfold bitOfSyndrome
  rcases Nat.lt_or_ge i 272 with hc | hc
  · have hcheck : (List.range 9).find? (fun k => quarterColumn i == 2 ^ k) = none := by
      refine List.find?_range_eq_none.2 fun k hk => ?_
      rw [← quarterColumn_check hk, Bool.not_eq_true', beq_eq_false_iff_ne, Ne, quarterColumn_inj (by omega) (by omega)]
      omega
    have hcovered : (List.range 272).find? (fun j => quarterColumn j == quarterColumn i) = some i := by
      refine List.find?_range_eq_some.2 ⟨beq_self_eq_true _, List.mem_range.2 hc, fun j hj => ?_⟩
      rw [Bool.not_eq_true', beq_eq_false_iff_ne, Ne, quarterColumn_inj (by omega) (by omega)]
      omega
    rw [hcheck, zip_fecColumns, List.find?_map]
    simp only [Function.comp_def, hcovered, Option.map_some]
  · obtain ⟨k, rfl⟩ := Nat.exists_eq_add_of_le hc
    have hcheck : (List.range 9).find? (fun j => 2 ^ k == 2 ^ j) = some k := by
      refine List.find?_range_eq_some.2 ⟨beq_self_eq_true _, List.mem_range.2 (by omega), fun j hj => ?_⟩
      simpa using (Nat.pow_lt_pow_right Nat.one_lt_two hj).ne'
    rw [quarterColumn_check (by omega), hcheck]

/-! ## The decoder (R112) -/

section
variable {b : BitVec 282} {i : Nat}

theorem fecDecode_eq (b : BitVec 282) :
    fecDecode b = if syndrome b == 0 && !parity b then .clean else if parity b && syndrome b == 0 then .flip 281
      else if !parity b then .bad else bitOfSyndrome (syndrome b) := rfl

theorem fecDecode_clean (hs : syndrome b = 0) (hp : parity b = false) : fecDecode b = .clean := by
  simp [fecDecode_eq, hs, hp]

theorem fecDecode_bad (hs : syndrome b ≠ 0) (hp : parity b = false) : fecDecode b = .bad := by
  simp [fecDecode_eq, hs, hp]

/-- An odd number of wrong bits is read as the one bit whose column is found. -/
theorem fecDecode_flip (hi : i < 282) (hs : syndrome b = quarterColumn i) (hp : parity b = true) : fecDecode b = .flip i := by
  rcases Nat.lt_or_ge i 281 with hc | hc
  · have hne : quarterColumn i ≠ 0 := by
      rw [← quarterColumn_parity, Ne, quarterColumn_inj hi (by decide)]
      omega
    simp [fecDecode_eq, hs, hp, hne, bitOfSyndrome_column hc]
  · obtain rfl : i = 281 := by omega
    simp [fecDecode_eq, hs, hp, quarterColumn_parity]

end

/-! ## A quarter as sent (R111) -/

theorem syndrome_sent (x : BitVec 272) : syndrome (fecCheck x ++ x) = 0 := by
  have hlow : (fecCheck x ++ x).extractLsb' 0 272 = x := BitVec.extractLsb'_append_eq_right
  have hhigh : (fecCheck x ++ x).extractLsb' 272 9 = BitVec.ofNat 9 (fecSyn x) :=
    (BitVec.extractLsb'_append_eq_of_le (Nat.le_refl 272)).trans BitVec.extractLsb'_append_eq_right
  rw [syndrome, hlow, hhigh, BitVec.toNat_ofNat, Nat.mod_eq_of_lt (fecSyn_lt x), Nat.xor_self]

theorem parity_sent (x : BitVec 272) : parity (fecCheck x ++ x) = false := by
  rw [parity_append, fecCheck, parity_append, parity_bool]
  cases parity x <;> cases parity (BitVec.ofNat 9 (fecSyn x)) <;> rfl

theorem extract_sent (x : BitVec 272) : (fecCheck x ++ x).extractLsb' 0 272 = x := BitVec.extractLsb'_append_eq_right

/-- Settles O55: a word that arrives has the sum of its wrong bits' columns for its syndrome. -/
theorem fecCorrectsAndDetects : Obligations.FecCorrectsAndDetects := by
  intro x sent wrong
  have hs : syndrome sent = 0 := syndrome_sent x
  have hp : parity sent = false := parity_sent x
  refine ⟨?clean, fun i hi => ?one, fun i j hij hj => ?two⟩
  case clean =>
    rw [fecQuarter, fecDecode_clean hs hp]
    exact congrArg (fun y => some (y, none)) (extract_sent x)
  case one =>
    have hs1 : syndrome (sent ^^^ wrong i) = quarterColumn i := by
      rw [syndrome_xor, hs, Nat.zero_xor, syndrome_two_pow hi]
    have hp1 : parity (sent ^^^ wrong i) = true := by
      rw [parity_xor, hp, Bool.false_xor, parity_two_pow hi]
    have hback : sent ^^^ wrong i ^^^ BitVec.ofNat 282 (2 ^ i) = sent := by
      rw [BitVec.xor_assoc, BitVec.xor_self, BitVec.xor_zero]
    rw [fecQuarter, fecDecode_flip hi hs1 hp1]
    dsimp only
    rw [hback, extract_sent]
  case two =>
    have hi : i < 282 := hij.trans hj
    have hs2 : syndrome (sent ^^^ wrong i ^^^ wrong j) ≠ 0 := by
      rw [syndrome_xor, syndrome_xor, hs, Nat.zero_xor, syndrome_two_pow hi, syndrome_two_pow hj, Ne, Nat.xor_eq_zero_iff,
        quarterColumn_inj hi hj]
      exact hij.ne
    have hp2 : parity (sent ^^^ wrong i ^^^ wrong j) = false := by
      rw [parity_xor, parity_xor, hp, parity_two_pow hi, parity_two_pow hj]
      rfl
    rw [fecQuarter, fecDecode_bad hs2 hp2]

end Sys2Proof.Machine
end

section
/-! SUPPORT. Writes of one part of a stop, and what they leave of its other parts. -/

namespace Sys2Proof.Machine

section
variable {β : Type} (f : Fabric)

/-- A write of an NI keeps every part of every NI that it keeps of its own. -/
theorem Fabric.updNi_part (part : Ni → β) {p : Nat} {g : Ni → Ni} (hg : part (g (f.ni p)) = part (f.ni p)) (q : Nat) :
    part ((f.updNi p g).ni q) = part (f.ni q) := by
  rcases Decidable.em (q = p) with rfl | hne
  · rw [Fabric.updNi_ni_self, hg]
  · rw [Fabric.updNi_ni_ne _ _ hne]

theorem Fabric.updStop_part (part : Stop → β) {s : Nat} {g : Stop → Stop} (hg : part (g (f.stopU s)) = part (f.stopU s))
    (t : Nat) : part ((f.updStop s g).stopU t) = part (f.stopU t) := by
  rcases Decidable.em (t = s) with rfl | hne
  · rw [Fabric.updStop_stop_self, hg]
  · rw [Fabric.updStop_stop_ne _ _ hne]

end

end Sys2Proof.Machine
end

section
/-! SUPPORT. A flit that arrives intact: what its number decides (05 R106, R113, R114). -/

namespace Sys2Proof.Machine

/-! ## The two ends of a link -/

/-- What an end has accepted in sequence. -/
def LinkRx.accepted (r : LinkRx) : BitVec 8 × List Flit × Bool := (r.lack, r.landing, r.discarding)
def Fabric.accepted (f : Fabric) (e : End) : BitVec 8 × List Flit × Bool := (f.rx e).accepted

section
variable (f : Fabric) (a e : End)

theorem Fabric.updRx_rx_self (g : LinkRx → LinkRx) : (f.updRx e g).rx e = g (f.rx e) := by
  cases e <;> simp [Fabric.updRx, Fabric.setRx, Fabric.rx, Fabric.rxOf]

/-- A write of a stop or of an NI that keeps its receiving ends, or its buffers, keeps those of every link. -/
theorem Fabric.updStop_rx {s : Nat} {g : Stop → Stop} (hg : ∀ x, (g x).rx = x.rx) : (f.updStop s g).rx e = f.rx e := by
  cases e with
  | st t i => exact congrArg (fun m : NMap LinkRx => m.get (inputOf i) {}) (f.updStop_part Stop.rx (hg _) t)
  | ni q => rfl

theorem Fabric.updNi_rx {p : Nat} {g : Ni → Ni} (hg : ∀ n, (g n).rx = n.rx) : (f.updNi p g).rx e = f.rx e := by
  cases e with
  | st t i => rfl
  | ni q => exact f.updNi_part Ni.rx (hg _) q

theorem Fabric.updStop_vcQ {s : Nat} {g : Stop → Stop} (hg : ∀ x, (g x).vq = x.vq) : (f.updStop s g).vcQ e = f.vcQ e := by
  cases e with
  | st t i => exact congrArg (fun (m : NMap (List QPkt)) v => m.get (12 * inputOf i + v) []) (f.updStop_part Stop.vq (hg _) t)
  | ni q => rfl

theorem Fabric.updNi_vcQ {p : Nat} {g : Ni → Ni} (hg : ∀ n, (g n).vq = n.vq) : (f.updNi p g).vcQ e = f.vcQ e := by
  cases e with
  | st t i => rfl
  | ni q => exact congrArg (fun (m : NMap (List QPkt)) v => m.get v []) (f.updNi_part Ni.vq (hg _) q)

theorem Fabric.updTx_rx (g : LinkTx → LinkTx) : (f.updTx a g).rx e = f.rx e := by
  cases a with
  | st s o => exact f.updStop_rx e fun _ => rfl
  | ni p => exact f.updNi_rx e fun _ => rfl

theorem Fabric.setVcQ_rx (v : Nat) (l : List QPkt) : (f.setVcQ a v l).rx e = f.rx e := by
  cases a with
  | st s o => exact f.updStop_rx e fun _ => rfl
  | ni p => exact f.updNi_rx e fun _ => rfl

theorem Fabric.raiseEnd_rx (k : FaultKind) (info : Nat) : (f.raiseEnd a k info).rx e = f.rx e := by
  cases a with
  | st s o => exact f.updStop_rx e fun _ => rfl
  | ni p => exact f.updNi_rx e fun _ => rfl

theorem Fabric.updTx_vcQ (g : LinkTx → LinkTx) : (f.updTx a g).vcQ e = f.vcQ e := by
  cases a with
  | st s o => exact f.updStop_vcQ e fun _ => rfl
  | ni p => exact f.updNi_vcQ e fun _ => rfl

theorem Fabric.updRx_vcQ (g : LinkRx → LinkRx) : (f.updRx a g).vcQ e = f.vcQ e := by
  cases a with
  | st s o => exact f.updStop_vcQ e fun _ => rfl
  | ni p => exact f.updNi_vcQ e fun _ => rfl

/-- A write of a receiving end that keeps what it has accepted keeps what every end has accepted. -/
theorem Fabric.updRx_accepted {g : LinkRx → LinkRx} (hg : (g (f.rx a)).accepted = (f.rx a).accepted) :
    (f.updRx a g).accepted e = f.accepted e := by
  cases a <;> cases e
  case st.st s o t i =>
    refine f.updStop_part (fun x => (x.rx.get (inputOf i) {}).accepted) ?_ t
    rcases Decidable.em (inputOf i = inputOf o) with h | hne
    · rw [h, NMap.get_put_self]
      exact hg
    · rw [NMap.get_put_ne _ _ _ hne]
  case ni.ni p q => exact f.updNi_part (fun n => n.rx.accepted) hg q
  all_goals rfl

end

section
variable (f : Fabric) (a e : End)

/-- What an end has accepted, and the buffers of its VCs. -/
def Fabric.entered (f : Fabric) (e : End) : (BitVec 8 × List Flit × Bool) × (Nat → List QPkt) := (f.accepted e, f.vcQ e)

theorem Fabric.updRx_entered {g : LinkRx → LinkRx} (hg : ∀ r, (g r).accepted = r.accepted) :
    (f.updRx a g).entered e = f.entered e :=
  Prod.ext (f.updRx_accepted a e (hg _)) (f.updRx_vcQ a e g)

theorem Fabric.updTx_entered (g : LinkTx → LinkTx) : (f.updTx a g).entered e = f.entered e :=
  Prod.ext (congrArg LinkRx.accepted (f.updTx_rx a e g)) (f.updTx_vcQ a e g)

/-! ## Acknowledgements act on the reverse sender (R106 rule 4) -/

theorem Fabric.sendCreditsAgain_entered : (f.sendCreditsAgain a).entered e = f.entered e := by
  unfold Fabric.sendCreditsAgain
  split
  · rfl
  · refine Eq.trans (updRx_entered _ _ e fun _ => rfl) ?_
    refine Eq.trans (updRx_entered _ a e fun _ => rfl) ?_
    exact f.updTx_entered a e _

theorem Fabric.takeAck_entered (c : Ctl) : (f.takeAck a c).entered e = f.entered e := by
  unfold Fabric.takeAck
  extract_lets dl f1
  have h1 : f1.entered e = f.entered e := by
    unfold f1
    split
    · exact f.sendCreditsAgain_entered a e
    · rfl
  exact (f1.updTx_entered a e _).trans h1

/-! ## A flit enters the buffer of its VC (R63, R105) -/

theorem Fabric.oweIn_accepted (vc n : Nat) : (f.oweIn a vc n).accepted e = f.accepted e := by
  unfold Fabric.oweIn Fabric.owe
  split
  · rfl
  · split
    · rfl
    · exact f.updRx_accepted a e rfl

theorem Fabric.setVcQ_accepted (v : Nat) (l : List QPkt) : (f.setVcQ a v l).accepted e = f.accepted e :=
  congrArg LinkRx.accepted (f.setVcQ_rx a e v l)

theorem Fabric.raiseEnd_accepted (k : FaultKind) (info : Nat) : (f.raiseEnd a k info).accepted e = f.accepted e :=
  congrArg LinkRx.accepted (f.raiseEnd_rx a e k info)

theorem Fabric.dropFlit_accepted (vc : Nat) (ft : BitVec 3) : (f.dropFlit a vc ft).accepted e = f.accepted e :=
  (updRx_accepted _ a e rfl).trans (f.oweIn_accepted a e vc 1)

theorem Fabric.dropOn_accepted (vc : Nat) : (f.dropOn a vc).accepted e = f.accepted e := f.updRx_accepted a e rfl

theorem Fabric.closeVc_accepted (vc : Nat) : (f.closeVc a vc).accepted e = f.accepted e := by
  unfold Fabric.closeVc
  dsimp only
  split
  · exact f.setVcQ_accepted a e vc _
  · exact f.oweIn_accepted a e vc 1

theorem Fabric.frameErr_accepted (vc : Nat) : (f.frameErr a vc).accepted e = f.accepted e :=
  (raiseEnd_accepted _ a e _ _).trans ((dropOn_accepted _ a e vc).trans (f.closeVc_accepted a e vc))

theorem Fabric.overrun_accepted (vc : Nat) (ft : BitVec 3) : (f.overrun a vc ft).accepted e = f.accepted e := by
  refine (raiseEnd_accepted _ a e _ _).trans ?_
  split
  · exact f.closeVc_accepted a e vc
  · exact (dropOn_accepted _ a e vc).trans (f.closeVc_accepted a e vc)

/-- Whatever becomes of a flit that is next in sequence, it counts as accepted. -/
theorem Fabric.enterVc_accepted (x : Flit) : (f.enterVc a x).accepted e = f.accepted e := by
  unfold Fabric.enterVc
  dsimp only
  split
  next =>
    split
    · exact (raiseEnd_accepted _ a e _ _).trans (f.dropOn_accepted a e _)
    · split
      · exact f.updRx_accepted a e rfl
      · rfl
  next =>
    split
    · exact f.dropFlit_accepted a e _ _
    · split
      · exact f.frameErr_accepted a e _
      · split
        · exact f.overrun_accepted a e _ _
        · split
          · exact f.setVcQ_accepted a e _ _
          · exact f.setVcQ_accepted a e _ _

end

/-! ## A flit that arrives intact (R113, R114) -/

section
variable {f : Fabric} {e : End} {x : Flit}

/-- The fabric once the acknowledgement of a flit has been taken. -/
def Fabric.ackTaken (f : Fabric) (e : End) (x : Flit) : Fabric :=
  (f.updRx e fun r => { r with lastIntact := f.time.fcc }).takeAck e (Ctl.ofBits x.c)

/-- The fabric once a flit that is next in sequence has been accepted, before it enters a buffer. -/
def Fabric.nextTaken (f : Fabric) (e : End) (x : Flit) : Fabric :=
  ((f.ackTaken e x).updRx e fun r => { r with lack := (Ctl.ofBits x.c).lseq, discarding := false, idleApplied := [], run := 0 }).updTx e
    fun t => t.applyCredits (f.endBridge e) (ctlCredits (Ctl.ofBits x.c))

theorem Fabric.intactFlit_eq : f.intactFlit e x =
    if (Ctl.ofBits x.c).ftype = ftIdle then
      if ((f.ackTaken e x).rx e).retracted.isSome then f.ackTaken e x
      else ((f.ackTaken e x).updTx e fun t => t.applyCredits (f.endBridge e) (ctlCredits (Ctl.ofBits x.c))).updRx e fun r =>
        { r with idleApplied := r.idleApplied ++ ctlCredits (Ctl.ofBits x.c) }
    else if (Ctl.ofBits x.c).lseq = ((f.ackTaken e x).rx e).lack + 1 then
      if f.endBridge e then (f.nextTaken e x).updRx e fun r => { r with landing := r.landing ++ [{ x with at_ := f.time.fcc }] }
      else (f.nextTaken e x).enterVc e x
    else f.ackTaken e x := by
  unfold Fabric.intactFlit
  simp only [beq_iff_eq]
  rfl

theorem Fabric.nextTaken_accepted :
    (f.nextTaken e x).accepted e = ((Ctl.ofBits x.c).lseq, ((f.ackTaken e x).rx e).landing, false) := by
  unfold Fabric.nextTaken Fabric.accepted
  rw [Fabric.updTx_rx, Fabric.updRx_rx_self]
  rfl

theorem Fabric.ackTaken_entered : (f.ackTaken e x).entered e = f.entered e :=
  (takeAck_entered _ e e _).trans (f.updRx_entered e e fun _ => rfl)

theorem Fabric.ackTaken_lack : ((f.ackTaken e x).rx e).lack = (f.rx e).lack :=
  congrArg (·.1.1) (Fabric.ackTaken_entered (f := f) (e := e) (x := x))

theorem Fabric.intactFlit_idle (hi : (Ctl.ofBits x.c).ftype = ftIdle) : (f.intactFlit e x).entered e = f.entered e := by
  rw [Fabric.intactFlit_eq, if_pos hi]
  split
  · exact Fabric.ackTaken_entered
  · refine Eq.trans (updRx_entered _ e e fun _ => rfl) ?_
    exact (updTx_entered _ e e _).trans Fabric.ackTaken_entered

theorem Fabric.intactFlit_outOfOrder (hi : (Ctl.ofBits x.c).ftype ≠ ftIdle) (hseq : (Ctl.ofBits x.c).lseq ≠ (f.rx e).lack + 1) :
    f.intactFlit e x = f.ackTaken e x := by
  rw [Fabric.intactFlit_eq, if_neg hi, Fabric.ackTaken_lack, if_neg hseq]

theorem Fabric.intactFlit_next (hi : (Ctl.ofBits x.c).ftype ≠ ftIdle) (hseq : (Ctl.ofBits x.c).lseq = (f.rx e).lack + 1) :
    ((f.intactFlit e x).rx e).lack = (Ctl.ofBits x.c).lseq ∧ ((f.intactFlit e x).rx e).discarding = false := by
  have h := Fabric.nextTaken_accepted (f := f) (e := e) (x := x)
  rw [Fabric.intactFlit_eq, if_neg hi, Fabric.ackTaken_lack, if_pos hseq]
  split
  · rw [Fabric.updRx_rx_self]
    exact ⟨congrArg (·.1) h, congrArg (·.2.2) h⟩
  · rw [← Fabric.enterVc_accepted _ e e x] at h
    exact ⟨congrArg (·.1) h, congrArg (·.2.2) h⟩

end

/-- Settles O47: what an end holds changes with the next flit in sequence only. -/
theorem flitsEnterInOrder : Obligations.FlitsEnterInOrder := by
  intro f e x c g
  refine ⟨Fabric.intactFlit_next, fun h => ?_⟩
  have hg : g.entered e = f.entered e := by
    rcases Decidable.em (c.ftype = ftIdle) with hi | hi
    · exact Fabric.intactFlit_idle hi
    · exact (congrArg (·.entered e) (Fabric.intactFlit_outOfOrder hi (h.resolve_left hi))).trans Fabric.ackTaken_entered
  exact ⟨congrArg (·.1.1) hg, congrArg (·.1.2.1) hg, congrArg (·.1.2.2) hg, fun v => congrArg (·.2 v) hg⟩

end Sys2Proof.Machine
end

section
/-! SUPPORT. The sending ends of the stops, which neither the passing of time nor a stop that attends to its buffers
changes. -/

namespace Sys2Proof.Machine

/-- The sending ends of every stop. -/
def Fabric.senders (f : Fabric) : Nat → NMap LinkTx := fun s => (f.stopU s).tx

section
variable (f : Fabric) (s : Nat)

theorem Fabric.updStop_senders {g : Stop → Stop} (hg : ∀ x, (g x).tx = x.tx) : (f.updStop s g).senders = f.senders :=
  funext (f.updStop_part Stop.tx (hg _))

/-! ## Time passes (log entry 9) -/

theorem Fabric.stopPass_senders (n : Nat) : (f.stopPass n s).senders = f.senders := by
  refine f.updStop_senders s fun x => ?_
  split <;> rfl

theorem Fabric.pass_senders (n : Nat) : (f.pass n).senders = f.senders := by
  unfold Fabric.pass
  split
  · rfl
  · extract_lets ports f1
    have h1 : f1.senders = f.senders := Fabric.forEach_keeps Fabric.senders (by intros; rfl) _ ports
    exact (Fabric.forEach_keeps Fabric.senders (fun g t => g.stopPass_senders t n) f1 _).trans h1

theorem Fabric.reach_senders (t : Nat) : (f.reach t).senders = f.senders := by
  unfold Fabric.reach
  dsimp only
  split
  · rfl
  · exact f.pass_senders _

/-! ## What a stop builds and refuses (03 R80; 04 R445; 09 R215, R220) -/

theorem Fabric.stopRspDrop_senders (h : Header) (st : Status) : (f.stopRspDrop s h st).senders = f.senders := by
  unfold Fabric.stopRspDrop
  split
  · rfl
  · exact f.updStop_senders s fun _ => rfl

theorem Fabric.portRefused_senders (port : Nat) (st : Status) : (f.portRefused port st).senders = f.senders := by
  unfold Fabric.portRefused
  split
  · rfl
  · exact f.updStop_senders _ fun _ => rfl

theorem Fabric.stopSend_senders (x : Packet) (bs : List Branch) : (f.stopSend s x bs).senders = f.senders :=
  f.updStop_senders s fun _ => rfl

theorem Fabric.stopAnswer_senders (x : Packet) : (f.stopAnswer s x).senders = f.senders := by
  unfold Fabric.stopAnswer
  dsimp only
  split
  next =>
    split
    next => exact f.stopSend_senders s _ _
    next =>
      split
      next => exact f.stopSend_senders s _ _
      next => exact (stopRspDrop_senders _ s _ _).trans (f.portRefused_senders _ _)
    next => exact f.stopRspDrop_senders s _ _
    next => rfl
  next => exact f.stopRspDrop_senders s _ _
  next => rfl

theorem Fabric.leafDone_senders (slot : Nat) : (f.leafDone s slot).senders = f.senders := by
  unfold Fabric.leafDone
  split
  · rfl
  · dsimp only
    split
    · rfl
    · exact (stopAnswer_senders _ s _).trans (f.updStop_senders s fun _ => rfl)

theorem Fabric.leafStatus_senders (slot p : Nat) (st : Status) : (f.leafStatus s slot p st).senders = f.senders :=
  (leafDone_senders _ s slot).trans (f.updStop_senders s fun _ => rfl)

theorem Fabric.stopDiscard_senders (h : Header) (st : Status) : (f.stopDiscard s h st).senders = f.senders := by
  unfold Fabric.stopDiscard
  split
  · exact f.stopRspDrop_senders s h st
  · split
    · refine Eq.trans (updStop_senders _ s fun _ => rfl) ?_
      split <;> rfl
    · rfl

theorem Fabric.stopRefuse_senders (h : Header) (st : Status) : (f.stopRefuse s h st).1.senders = f.senders := by
  unfold Fabric.stopRefuse
  split
  · rfl
  · exact f.stopDiscard_senders s h st

/-! ## A stop attends to its buffers (09 R216) -/

theorem Fabric.buryBranch_senders (q : QPkt) (b : Branch) : (f.buryBranch s q b).senders = f.senders := by
  unfold Fabric.buryBranch
  split
  · rfl
  · split
    · exact f.leafStatus_senders s _ _ _
    · split
      · exact f.stopAnswer_senders s _
      · split
        · exact f.stopRspDrop_senders s _ _
        · rfl

theorem Fabric.bury_senders (q : QPkt) : (f.bury s q).1.senders = f.senders := by
  unfold Fabric.bury
  split
  · split
    · rfl
    · dsimp only
      split
      · exact Fabric.forEach_keeps Fabric.senders (fun g b => g.buryBranch_senders s q b) f _
      · exact f.stopRefuse_senders s _ _
  · rfl

theorem Fabric.oweKey_senders (key n : Nat) : (f.oweKey s key n).senders = f.senders := by
  unfold Fabric.oweKey Fabric.oweIn Fabric.owe
  split
  · split
    · rfl
    · split
      · rfl
      · exact f.updStop_senders s fun _ => rfl
  · rfl

theorem Fabric.setStopQ_senders (key : Nat) (l : List QPkt) : (f.setStopQ s key l).senders = f.senders :=
  f.updStop_senders s fun _ => rfl

theorem Fabric.attend_senders (key i : Nat) : (f.attend s key i).senders = f.senders := by
  unfold Fabric.attend
  split
  next => rfl
  next q0 _ =>
    dsimp only
    generalize (if i = 0 && (f.bury s q0).1.rduTakes s (f.bury s q0).2 then _ else _ : QPkt × Nat) = r
    have h2 (l : List QPkt) : (((f.bury s q0).1.setStopQ s key l).oweKey s key r.2).senders = f.senders :=
      (oweKey_senders _ s key _).trans ((setStopQ_senders _ s key l).trans (f.bury_senders s q0))
    split
    · split
      · exact (stopAnswer_senders _ s _).trans ((setStopQ_senders _ s key _).trans (h2 _))
      · exact (setStopQ_senders _ s key _).trans (h2 _)
    · exact h2 _

theorem Fabric.reap_senders : (f.reap s).senders = f.senders := by
  have hkeys (g : Fabric) (e : Nat × List QPkt) :
      ((List.range e.2.length).reverse.foldl (fun h i => h.attend s e.1 i) g).senders = g.senders :=
    Fabric.forEach_keeps Fabric.senders (fun h i => h.attend_senders s e.1 i) g _
  exact Fabric.forEach_keeps Fabric.senders hkeys f _

end

end Sys2Proof.Machine
end

section
/-! SUPPORT. Flits, acknowledgement timers and silent links (05 R112, R114, R115). -/

namespace Sys2Proof.Machine

section
variable (f : Fabric) (st o : Nat)

variable {f} in
theorem Fabric.txOf_of_senders {g : Fabric} (h : g.senders = f.senders) : g.txOf st o = f.txOf st o :=
  congrArg (fun m : Nat → NMap LinkTx => (m st).get o {}) h

/-- Credits sent again leave all of a sender but its record of the credits it placed in `IDLE` flits (R106 rule 4). -/
theorem Fabric.sendCreditsAgain_txOf :
    ∃ l, (f.sendCreditsAgain (.st st o)).txOf st o = { f.txOf st o with idleRec := l } := by
  have hrx (g : Fabric) (e : End) (k : LinkRx → LinkRx) : (g.updRx e k).txOf st o = g.txOf st o := by
    cases e with
    | st t i => exact g.updRx_txOf st o t i k
    | ni p => rfl
  unfold Fabric.sendCreditsAgain
  split
  · exact ⟨_, rfl⟩
  · refine ⟨[], ?_⟩
    rw [hrx, hrx, Fabric.updTx_txOf]

/-- Only a ring link is withdrawn for its failed retries (R115). -/
theorem Fabric.checkRun_local (ho : 4 ≤ o) : f.checkRun (.st st o) = f := by
  simp [Fabric.checkRun, Nat.not_lt.2 ho]

end

section
variable {s : State} (hm : s.fab.moving = true)
include hm

theorem gives_flitReceive {e : LinkEnd} (noise : List Nat) (hl : s.fab.endLive e = true) :
    gives (.flitReceive e noise) s (s.fab.flitArrives e noise) :=
  gives_when (s := s) (b := fun f => f.moving && f.endLive e) (g := (·.flitArrives e noise)) rfl (by simp [hm, hl])

/-- The sender at a stop's local output rewinds when its timer expires (R114 rules 2 and 4). -/
theorem gives_ackTimerExpiry_ni {p t : Nat} (hl : s.fab.endLive (.niIn p) = true)
    (ht : (s.fab.tx (s.fab.peer (.ni p))).ackAt = some t) (hd : s.fab.due t = true) :
    let e : End := .st (stopOfPort p) (4 + localOfPort p)
    let f1 := (s.fab.reach t).sendCreditsAgain e
    gives (.ackTimerExpiry (.niIn p)) s ((f1.updTx e fun x =>
      { x.rewind (f1.time.fcc + ackLimit (f1.endBridge e) * f1.unit) with
        run := if x.rewound then x.run + 1 else x.run }).reap (stopOfPort p)) := by
  intro e f1
  have h := gives_when (c := .ackTimerExpiry (.niIn p)) (s := s) (b := fun f => f.moving && f.endLive (.niIn p)) rfl
    (by simp [hm, hl])
  dsimp only [End.ofLink] at h
  rw [ht] at h
  dsimp only at h
  rw [hd] at h
  rwa [if_neg (by decide), show s.fab.peer (.ni p) = e from rfl, Fabric.checkRun_local _ _ _ (by omega)] at h

theorem gives_linkSilenceTimeout {st i : Nat} (hi : i < 4) (hst : st < nStops s.fab.variant) :
    let e : End := .st st (inputOf i)
    let t := (s.fab.rx e).lastIntact + silenceLimit (s.fab.endBridge e) * s.fab.unit
    s.fab.linkUp e = true → (s.fab.tx (s.fab.peer e)).state = .withdrawn → s.fab.due t = true →
    gives (.linkSilenceTimeout (.stopIn st i)) s (((s.fab.reach t).withdrawEnd st (inputOf i)).reap st) := by
  intro e t hup hpeer hdue
  have h := gives_when (c := .linkSilenceTimeout (.stopIn st i)) (s := s) (b := Fabric.moving) rfl hm
  dsimp only at h
  rwa [if_pos (by simp [hi, hst, hup, hpeer, hdue, e, t])] at h

end

/-- Settles O46: the sender behind an NI is its stop's, so no failed retry withdraws its link (log entries 15, 29, 30). -/
theorem linkCommands : Obligations.LinkCommands := by
  refine ⟨fun s e noise hm hl => gives_flitReceive hm noise hl, fun s p t hm hl ht hd => ?timer,
    fun s st i hm hi hst => gives_linkSilenceTimeout hm hi hst⟩
  case timer =>
    refine (gives_ackTimerExpiry_ni hm hl ht hd).answers ?_
    extract_lets x y
    obtain ⟨l, hf1⟩ := Fabric.sendCreditsAgain_txOf (s.fab.reach t) (stopOfPort p) (4 + localOfPort p)
    rw [Fabric.txOf_of_senders _ _ (Fabric.reach_senders ..)] at hf1
    have hy : y = _ := (Fabric.txOf_of_senders _ _ (Fabric.reap_senders ..)).trans (Fabric.updTx_txOf ..)
    rw [hy, hf1]
    exact ⟨rfl, rfl, rfl, rfl, rfl⟩

end Sys2Proof.Machine
end

section
/-! SUPPORT. Loops that come to each unit once, and what time leaves of a unit as it reaches an instant (log entry 9). -/

namespace Sys2Proof.Machine

/-- In a loop that comes to each unit once, a unit sees its own round alone. -/
theorem foldl_own_round {α β γ : Type} (part : β → γ) {step : β → α → β} {a : α}
    (hother : ∀ b x, x ≠ a → part (step b x) = part b) {l : List α} (hn : l.Nodup) (ha : a ∈ l) (b : β) :
    ∃ c, part c = part b ∧ part (l.foldl step b) = part (step c a) := by
  induction l generalizing b with
  | nil => cases ha
  | cons x l ih =>
    obtain ⟨hx, hl⟩ := List.nodup_cons.1 hn
    rcases List.mem_cons.1 ha with rfl | hal
    · refine ⟨b, rfl, ?_⟩
      exact List.foldlRecOn (motive := fun c => part c = part (step b a)) l step rfl fun c hc y hy =>
        (hother c y fun h => hx (h ▸ hy)).trans hc
    · obtain ⟨c, hc, hfold⟩ := ih hl hal (step b x)
      exact ⟨c, hc.trans (hother b x fun h => hx (h ▸ hal)), hfold⟩

/-- What the counts that run, a cycle at an NI and a cycle at a stop leave, time leaves as it reaches an instant. -/
theorem Fabric.reach_keeps {β : Type} (part : Fabric → β) (htime : ∀ f g, part (f.updTime g) = part f)
    (hni : ∀ f n p, part (f.niPass n p) = part f) (hstop : ∀ f n s, part (f.stopPass n s) = part f)
    (f : Fabric) (t : Nat) : part (f.reach t) = part f := by
  have hpass : ∀ n, part (f.pass n) = part f := by
    intro n
    unfold Fabric.pass
    split
    · rfl
    · extract_lets ports f1
      have h1 : part f1 = part f := (Fabric.forEach_keeps part (fun g p => hni g n p) _ ports).trans (htime ..)
      exact (Fabric.forEach_keeps part (fun g s => hstop g n s) f1 _).trans h1
  unfold Fabric.reach
  dsimp only
  split
  · rfl
  · exact (htime ..).trans (hpass _)

/-- An NI but for what runs with time: the accounts of its channels, the outputs of its issue port, its control credits. -/
def Ni.untimed (n : Ni) : Ni :=
  { n with tsq := { n.tsq with acc := [], fip := {} }, inj := { n.inj with ccMgt := 0, ccSig := 0 } }

section
variable (f : Fabric) (t p : Nat)

theorem Fabric.reach_untimed : ((f.reach t).ni p).untimed = (f.ni p).untimed :=
  Fabric.reach_keeps (fun f => (f.ni p).untimed) (by intros; rfl) (fun f _ _ => f.updNi_part Ni.untimed rfl p)
    (by intros; rfl) f t

@[simp] theorem Fabric.reach_cfg : ((f.reach t).ni p).cfg = (f.ni p).cfg := (congrArg Ni.cfg (f.reach_untimed t p) :)
@[simp] theorem Fabric.reach_obs : ((f.reach t).ni p).obs = (f.ni p).obs := (congrArg Ni.obs (f.reach_untimed t p) :)
@[simp] theorem Fabric.reach_chan (c : Nat) : (f.reach t).chan (.tsq p c) = f.chan (.tsq p c) :=
  (congrArg (·.tsq.chans.get c {}) (f.reach_untimed t p) :)
@[simp] theorem Fabric.reach_tc : ((f.reach t).ni p).inj.tc = (f.ni p).inj.tc := (congrArg (·.inj.tc) (f.reach_untimed t p) :)
@[simp] theorem Fabric.reach_tp : ((f.reach t).ni p).inj.tp = (f.ni p).inj.tp := (congrArg (·.inj.tp) (f.reach_untimed t p) :)
@[simp] theorem Fabric.reach_meterOld : ((f.reach t).ni p).inj.meterOld = (f.ni p).inj.meterOld :=
  (congrArg (·.inj.meterOld) (f.reach_untimed t p) :)

@[simp] theorem Fabric.reach_variant : (f.reach t).variant = f.variant := (congrArg Fabric.variant (f.reach_offPlane t) :)

@[simp] theorem Fabric.reach_niReg (off : Nat) : (f.reach t).niReg p off = f.niReg p off := by
  simp [Fabric.niReg]
@[simp] theorem Fabric.reach_niTab (table i : Nat) : (f.reach t).niTab p table i = f.niTab p table i := by
  simp [Fabric.niTab]

/-- What kind of unit a port has is the FMU's to say (17 R378). -/
@[simp] theorem Fabric.reach_kind : (f.reach t).kind p = f.kind p := (congrArg (Fabric.kind · p) (f.reach_offPlane t) :)

theorem Fabric.stopPass_ports (n s : Nat) {s' : Nat} : ((f.stopPass n s).stopU s').ports = (f.stopU s').ports :=
  f.updStop_part Stop.ports (by dsimp only; split <;> rfl) s'

@[simp] theorem Fabric.reach_powered : (f.reach t).powered p = f.powered p := by
  have h : ((f.reach t).stopU (stopOfPort p)).ports = (f.stopU (stopOfPort p)).ports :=
    Fabric.reach_keeps (fun f => (f.stopU (stopOfPort p)).ports) (by intros; rfl) (by intros; rfl)
      (fun f n s => f.stopPass_ports n s) f t
  simp only [Fabric.powered, Fabric.sport, h]

end

end Sys2Proof.Machine
end

section
/-! SUPPORT. Op samples and their records (19 R419; log entries 135, 148). -/

namespace Sys2Proof.Machine

/-- A field of a number's bits is a digit of the number. -/
theorem extract_ofNat {w i n : Nat} (m : Nat) (h : i + n ≤ w) :
    (BitVec.ofNat w m).extractLsb' i n = BitVec.ofNat n (m / 2 ^ i % 2 ^ n) := by
  apply BitVec.eq_of_getLsbD_eq
  intro j hj
  have hw : i + j < w := by omega
  simp only [BitVec.getLsbD_extractLsb', BitVec.getLsbD_ofNat, Nat.testBit_mod_two_pow, Nat.testBit_div_two_pow, hj, hw,
    decide_true, Bool.true_and, Nat.add_comm]

/-- A record of type 4 holds the unit and the channel at their places. -/
theorem opSample_fields {c low : Nat} (hc : c < 16) (hlow : low < 2 ^ 172) (fcc srcid : Nat) :
    let r := traceRec 4 fcc (srcid * 2 ^ 176 + c * 2 ^ 172 + low)
    r.extractLsb' 252 4 = BitVec.ofNat 4 4 ∧ r.extractLsb' 172 4 = BitVec.ofNat 4 c ∧
      r.extractLsb' 176 12 = BitVec.ofNat 12 (srcid % 2 ^ 12) := by
  dsimp only [traceRec]
  refine ⟨?type, ?chan, ?unit⟩ <;> rw [extract_ofNat _ (by decide)] <;> apply congrArg (BitVec.ofNat _) <;> omega

theorem fld_lt {w : Nat} (x : BitVec w) (hi lo : Nat) : fld x hi lo < 2 ^ (hi + 1 - lo) := Nat.mod_lt _ (Nat.two_pow_pos _)

theorem Chan.stateCode_lt (c : Chan) : c.stateCode < 8 := by
  unfold Chan.stateCode
  split_ifs <;> decide

/-- Below the unit and the channel, an op sample keeps to 172 bits. -/
theorem opSampleLow_split (srcid c : Nat) (ch : Chan) :
    ∃ low < 2 ^ 172, opSampleLow srcid c ch = srcid * 2 ^ 176 + c * 2 ^ 172 + low := by
  have hstate := ch.stateCode_lt
  have hreason : fld (Chan.statWord ch) 28 25 < 16 := fld_lt ..
  have hpc := (Chan.pcWord ch).isLt
  have hstarted := ch.started.isLt
  unfold opSampleLow
  extract_lets oc
  have hoc : oc < 64 := by
    unfold oc
    split
    · exact fld_lt ..
    · decide
  exact ⟨ch.stateCode * 2 ^ 169 + fld (Chan.statWord ch) 28 25 * 2 ^ 165 + oc * 2 ^ 159 + (Chan.pcWord ch).toNat * 2 ^ 96 +
    ch.started.toNat * 2 ^ 80, by omega, by omega⟩

theorem opSample_record {c : Nat} (hc : c < 16) (fcc p : Nat) (ch : Chan) :
    let r := traceRec 4 fcc (opSampleLow (3 * 2 ^ 12 + p) c ch)
    r.extractLsb' 252 4 = 4 ∧ r.extractLsb' 172 4 = BitVec.ofNat 4 c ∧ r.extractLsb' 176 12 = BitVec.ofNat 12 p := by
  obtain ⟨low, hlow, heq⟩ := opSampleLow_split (3 * 2 ^ 12 + p) c ch
  obtain ⟨htype, hchan, hunit⟩ := opSample_fields hc hlow fcc (3 * 2 ^ 12 + p)
  rw [heq]
  refine ⟨htype, hchan, hunit.trans ?_⟩
  apply BitVec.eq_of_toNat_eq
  simp only [BitVec.toNat_ofNat]
  omega

section
variable {f : Fabric} {p c : Nat}

/-- A channel that is not idle adds its record to the NI's queue of records while that has room. -/
theorem Fabric.opSample_traceQ (htr : hasTrace f.variant = true) (hon : bit (f.niReg (slicePort (dieOfPort p)) 0x1310) 29 = true)
    (hk : f.kind p = 1) (hp : f.powered p = true) (hc : c < 16) (hst : Chan.stateCode (f.chan (.tsq p c)) ≠ 0)
    (hq : (f.ni p).obs.traceQ.length < 4) : ((f.opSample p c).ni p).obs.traceQ = (f.ni p).obs.traceQ ++
      [traceRec 4 (f.fccOf (dieOfPort p)) (opSampleLow (3 * 2 ^ 12 + p) c (f.chan (.tsq p c)))] := by
  unfold Fabric.opSample
  dsimp only
  rw [Fabric.when_of _ (by simp [htr, hon, hk, hp, hc, hst]), Fabric.traceNi, if_pos hq, Fabric.updNi_ni_self]

end

/-- The first instant of a phase from a count on: it is no earlier, and in phase. -/
theorem nextInPhase (t : Nat) {n ph : Nat} (hph : ph < n) :
    let a := if t % n ≤ ph then t / n * n + ph else (t / n + 1) * n + ph
    t ≤ a ∧ a % n = ph % n := by
  have ht : t / n * n + t % n = t := by rw [Nat.mul_comm]; exact Nat.div_add_mod ..
  have hlt : t % n < n := Nat.mod_lt _ (by omega)
  intro a
  unfold a
  split
  · exact ⟨by omega, Nat.mul_add_mod_self_right ..⟩
  · refine ⟨?_, Nat.mul_add_mod_self_right ..⟩
    rw [Nat.add_mul]
    omega

theorem samplePhase_lt (p c : Nat) (d : Word) : samplePhase p c d < samplePeriod d := Nat.mod_lt _ (Nat.two_pow_pos _)

end Sys2Proof.Machine
end

section
/-! SUPPORT. The refill of the meters (06 R140, R142; log entry 92). -/

namespace Sys2Proof.Machine

theorem NMap.get_del_self {α : Type} (m : NMap α) (k : Nat) (d : α) : (NMap.del m k).get k d = d := by
  simp [NMap.get]
theorem NMap.get_del_ne {α : Type} (m : NMap α) {k j : Nat} (d : α) (h : j ≠ k) : (NMap.del m k).get j d = m.get j d := by
  simp [NMap.get, NMap.find?_del_ne m h]

/-- One domain's level becomes what the refill makes of it; a level of 0 is not listed. -/
def refillLevel (v : Nat → Nat → Nat) (m : NMap Nat) (d : Nat) : NMap Nat :=
  if v d (m.get d 0) == 0 then m.del d else m.put d (v d (m.get d 0))

section
variable (v : Nat → Nat → Nat) (m : NMap Nat)

theorem refillLevel_self (d : Nat) : (refillLevel v m d).get d 0 = v d (m.get d 0) := by
  unfold refillLevel
  split
  next h => rw [NMap.get_del_self, beq_iff_eq.1 h]
  next => exact NMap.get_put_self ..

theorem refillLevel_ne {d e : Nat} (h : e ≠ d) : (refillLevel v m d).get e 0 = m.get e 0 := by
  unfold refillLevel
  split
  · exact NMap.get_del_ne m 0 h
  · exact NMap.get_put_ne _ _ _ h

theorem refillLevels_get {d : Nat} (hd : d < 64) :
    ((List.range 64).foldl (refillLevel v) m).get d 0 = v d (m.get d 0) := by
  obtain ⟨c, hc, hfold⟩ := foldl_own_round (·.get d 0) (step := refillLevel v) (a := d)
    (fun m x hx => refillLevel_ne v m hx.symm) List.nodup_range (List.mem_range.2 hd) m
  exact hfold.trans ((refillLevel_self v c d).trans (congrArg (v d) hc))

end

section
variable {f : Fabric} {p : Nat}

/-- Where no turn has set a meter, a domain's level gains its rate up to its burst size. -/
def Fabric.refillTo (f : Fabric) (p hi lo d level : Nat) : Nat :=
  min (fld (f.niTab p 2 (4 * d + 2)) hi lo * 1024) (level + 16 * fld (f.niTab p 2 (4 * d + 1)) hi lo)

theorem Fabric.refill_levels (h : (f.ni p).inj.meterOld = none) :
    ((f.refill p).ni p).inj.tc = (List.range 64).foldl (refillLevel (f.refillTo p 31 16)) (f.ni p).inj.tc ∧
    ((f.refill p).ni p).inj.tp = (List.range 64).foldl (refillLevel (f.refillTo p 15 0)) (f.ni p).inj.tp := by
  unfold Fabric.refill
  rw [h]
  simp only [Fabric.updNi_ni_self]
  exact ⟨rfl, rfl⟩

theorem Fabric.reach_refillTo (f : Fabric) (t p : Nat) : (f.reach t).refillTo p = f.refillTo p := by
  funext hi lo d level
  simp only [Fabric.refillTo, Fabric.reach_niTab]

/-- The other NIs' refills leave an NI alone. -/
theorem Fabric.refill_ni_ne {x : Nat} (h : p ≠ x) : (f.refill x).ni p = f.ni p :=
  (Fabric.updNi_ni_ne _ _ h).trans rfl

theorem Fabric.refillAll_levels {l : List Nat} (hl : l.Nodup) (hp : p ∈ l) (h : (f.ni p).inj.meterOld = none) {d : Nat}
    (hd : d < 64) :
    let n := (l.foldl (fun g p => g.refill p) f).ni p
    n.inj.tc.get d 0 = f.refillTo p 31 16 d ((f.ni p).inj.tc.get d 0) ∧
      n.inj.tp.get d 0 = f.refillTo p 15 0 d ((f.ni p).inj.tp.get d 0) := by
  obtain ⟨g, hg, hfold⟩ := foldl_own_round (·.ni p) (step := fun g p => Fabric.refill g p)
    (fun g x hx => Fabric.refill_ni_ne hx.symm) hl hp f
  have hto : g.refillTo p = f.refillTo p := by
    funext hi lo d level
    simp only [Fabric.refillTo, Fabric.niTab, hg]
  obtain ⟨htc, htp⟩ := Fabric.refill_levels (f := g) (p := p) (hg ▸ h)
  intro n
  unfold n
  rw [hfold, htc, htp, hto, hg]
  exact ⟨refillLevels_get _ _ hd, refillLevels_get _ _ hd⟩

end

end Sys2Proof.Machine
end

section
/-! SUPPORT. Results, samples, refills and the trace pointer, command by command (06 R140, R144; 12 R288; 14 R329;
19 R409, R419, R420). -/

namespace Sys2Proof.Machine

section
variable {s : State}

/-- A command that acts where a condition on the present state holds: what it does there. -/
theorem gives_if {c : Instr} {b : Bool} (g : Fabric → Fabric) (hc : exec c s = .next { s with fab := s.fab.when b g })
    (hb : b = true) : gives c s (g s.fab) := by
  rw [gives, hc, Fabric.when_of _ hb]

theorem digestPublish_running {r : DigRun} (hl : s.fab.live = true) (hr : s.fab.fmu.dig.running = some r) :
    answers .digestPublish s fun h => h.fmu.res.dig = s.fab.fmu.res.dig.publish r.words ∧
      h.fmu.dig.running = s.fab.fmu.dig.waiting ∧ h.fmu.dig.waiting = none ∧ h.nis = s.fab.nis ∧ h.stops = s.fab.stops := by
  refine (gives_when (c := .digestPublish) (b := Fabric.live) rfl hl).answers ?_
  rw [hr]
  exact ⟨rfl, rfl, rfl, rfl, rfl⟩

theorem ndetPublish_oldest {src : Bool} {ms : Nat} {ties arr : Word} {rest : List (Bool × Nat × Word × Word)}
    (hm : s.fab.moving = true) (hc : s.fab.fmu.dig.ndetCaps = (src, ms, ties, arr) :: rest) :
    answers .ndetPublish s fun h => h.fmu.dig.ndetCaps = rest ∧
      h.fmu.res.ndet = s.fab.fmu.res.ndet.publish [mkWord [(23, b2n src), (0, ms % 65536)], ties, arr] := by
  refine (gives_when (c := .ndetPublish) (b := Fabric.moving) rfl hm).answers ?_
  rw [hc]
  exact ⟨rfl, rfl⟩

/-- Sampling the queues is the business of the stops and the NIs. -/
theorem Fabric.sampleAll_fmu (f : Fabric) : f.sampleAll.fmu = f.fmu :=
  (Fabric.forEach_keeps Fabric.fmu (by intros; rfl) _ _).trans (Fabric.forEach_keeps Fabric.fmu (by intros; rfl) f _)

theorem gives_queueSample (hm : s.fab.moving = true) (hd : s.fab.due s.fab.sampleAt = true) :
    gives .queueSample s (s.fab.reach s.fab.sampleAt).sampleAll :=
  gives_if (fun f => (f.reach f.sampleAt).sampleAll) (b := s.fab.moving && s.fab.due s.fab.sampleAt) rfl (by simp [hm, hd])

theorem gives_traceRptrWrite {d : Nat} (w : Word) (hl : s.fab.live = true) (ht : hasTrace s.fab.variant = true)
    (hd : d < nDies s.fab.variant) : gives (.traceRptrWrite d w) s ((s.fab.traceRptr d w).busReply 0 false) := by
  change execTraceRptrWrite d w s = _
  simp [execTraceRptrWrite, Fabric.onBus, hl, ht, hd]

/-- The read pointer moves as far as the write pointer and no further (19 R420). -/
theorem Fabric.traceRptr_moves {f : Fabric} {d : Nat} {w : Word}
    (h : ((f.die d).trace.wptr - w.extractLsb' 0 16).toNat ≤ 32768) :
    f.traceRptr d w = f.updDie d fun x => { x with trace := { x.trace with rptr := w.extractLsb' 0 16 } } := if_pos h

theorem Fabric.traceRptr_stays {f : Fabric} {d : Nat} {w : Word}
    (h : 32768 < ((f.die d).trace.wptr - w.extractLsb' 0 16).toNat) : f.traceRptr d w = f := if_neg (Nat.not_le.2 h)

end

/-- Settles O35, command by command (log entries 110, 148). -/
theorem publicationsAndSamples : Obligations.PublicationsAndSamples := by
  refine ⟨fun s r hl hr => ?digest, fun s src ms ties arr rest hm hc => ?ndet, fun s hm hd => ?queues,
    fun s p c => ?ops, fun s => ?meters, fun s d w hl ht hd => ?trace⟩
  case digest =>
    obtain ⟨g, hg, hdig, hrun, hwait, hnis, hstops⟩ := digestPublish_running hl hr
    exact ⟨g, hg, by simp [hdig], by simp [hdig], by simp [hdig], hrun, hwait, hnis, hstops⟩
  case ndet =>
    obtain ⟨g, hg, hcaps, hndet⟩ := ndetPublish_oldest hm hc
    exact ⟨g, hg, by simp [hndet], by simp [hndet], by simp [hndet], hcaps⟩
  case queues =>
    have h := gives_queueSample hm hd
    exact ⟨h, h.answers ⟨rfl, (Fabric.sampleAll_fmu _).trans (Fabric.reach_fmu ..)⟩⟩
  case ops =>
    intro d n ph t a hm hd
    have h : gives (.opSample p c) s ((s.fab.reach (s.fab.slotOf a)).opSample p c) :=
      gives_if (fun f => (f.reach (s.fab.slotOf a)).opSample p c) (b := s.fab.moving && s.fab.due (s.fab.slotOf a)) rfl
        (by simp [hm, hd])
    obtain ⟨hta, hphase⟩ := nextInPhase t (samplePhase_lt p c d)
    refine ⟨hta, hphase, h, fun htr hon hk hp hc hst hq => ?_⟩
    have hrecord := Fabric.opSample_traceQ (f := s.fab.reach (s.fab.slotOf a)) (by rwa [Fabric.reach_variant])
      (by rwa [Fabric.reach_niReg]) (by rwa [Fabric.reach_kind]) (by rwa [Fabric.reach_powered]) hc
      (by rwa [Fabric.reach_chan]) (by rwa [Fabric.reach_obs])
    rw [Fabric.reach_obs] at hrecord
    exact h.answers ⟨_, hrecord, opSample_record hc ..⟩
  case meters =>
    intro t hm hd
    have h : gives .meterRefill s _ := gives_if (fun f => (f.portIds.filter fun p => f.kind p != 0).foldl
      (fun g p => g.refill p) (f.reach t)) (b := s.fab.moving && s.fab.due t) rfl (by simp [hm, hd])
    refine ⟨by omega, by omega, h, fun p d hp hk hd64 hold => ?_⟩
    have hmem : p ∈ s.fab.portIds.filter fun p => s.fab.kind p != 0 := by simp [Fabric.portIds, hp, hk]
    have hlevels := Fabric.refillAll_levels (f := s.fab.reach t) (List.Nodup.filter _ List.nodup_range) hmem
      (by rwa [Fabric.reach_meterOld]) hd64
    rw [Fabric.reach_refillTo, Fabric.reach_tc, Fabric.reach_tp] at hlevels
    exact h.answers hlevels
  case trace =>
    have h := gives_traceRptrWrite w hl ht hd
    intro t r
    refine ⟨fun hr => h.answers ?_, fun hr => ?_⟩
    · rw [Fabric.traceRptr_moves hr, Fabric.busReply_die, Fabric.updDie_die_self]
    · rwa [Fabric.traceRptr_stays hr] at h

end Sys2Proof.Machine
end

section
/-! SUPPORT. What an NI injects next (06 R132, R133; log entries 161, 179). -/

namespace Sys2Proof.Machine

section
variable {f g : Fabric} {p : Nat} {x : Shot}

theorem Fabric.domHead_domain {d : Nat} {xs : List Shot} (h : f.domHead p d xs = some x) : x.hdr.domain.toNat = d := by
  unfold Fabric.domHead at h
  extract_lets mine last at h
  have hx : x ∈ mine := by
    split at h
    next y hy => exact Option.some.inj h ▸ List.mem_of_find?_eq_some hy
    next => exact List.mem_of_head? h
  simpa using (List.mem_filter.1 hx).2

/-- A domain of which no head is red has no new entry among the heads held red. -/
theorem find?_hold_red {d : Nat} {red : List (Nat × Shot)} (h : ∀ e ∈ red, e.1 ≠ d) (m : NMap Nat) :
    (red.foldl (fun m e => if (NMap.find? m e.1).isSome then m else NMap.put m e.1 e.2.q) m).find? d = m.find? d := by
  refine List.foldlRecOn (motive := fun n => NMap.find? n d = m.find? d) red _ rfl fun n hn e he => ?_
  split
  · exact hn
  · exact (NMap.find?_put_ne _ _ (h e he).symm).trans hn

/-- The level of a head rests on its NI's configuration, its meters and the domains that hold one red. -/
theorem Fabric.level_updNi {u : Ni → Ni} (hcfg : (u (f.ni p)).cfg = (f.ni p).cfg)
    (hold : (u (f.ni p)).inj.meterOld = (f.ni p).inj.meterOld) (htp : (u (f.ni p)).inj.tp = (f.ni p).inj.tp)
    (htc : (u (f.ni p)).inj.tc = (f.ni p).inj.tc)
    (hred : (u (f.ni p)).inj.redHeld.find? x.hdr.domain.toNat = (f.ni p).inj.redHeld.find? x.hdr.domain.toNat) :
    (f.updNi p u).level p x = f.level p x := by
  have hkind : (f.updNi p u).kind p = f.kind p := rfl
  have hword (d w : Nat) : (f.updNi p u).meterW p d w = f.meterW p d w := by
    unfold Fabric.meterW Fabric.niTab
    rw [Fabric.updNi_ni_self, hold, hcfg]
  have hmeter : (f.updNi p u).preview p x.hdr = f.preview p x.hdr := by
    have hbytes : (f.updNi p u).meterBytes p x.hdr = f.meterBytes p x.hdr := by
      unfold Fabric.meterBytes Fabric.niReg
      rw [Fabric.updNi_ni_self, hcfg, Fabric.updNi_variant]
    unfold Fabric.preview Fabric.meterOn
    dsimp only
    rw [hword, hbytes, Fabric.updNi_ni_self, htp, htc]
  unfold Fabric.level
  rw [hkind, hmeter, Fabric.updNi_ni_self, hred]

/-- The round that chooses a head leaves its level: it holds red the domains whose own head is red. -/
theorem Fabric.drrShot_level (h : f.drrShot p = (some x, g)) : g.level p x = f.level p x := by
  unfold Fabric.drrShot at h
  extract_lets xs held doms heads red df0 f0 at_ quant pick at h
  have hheads : ∀ e ∈ heads, f.domHead p e.1 (xs.filter fun x => !held.contains x.q && f.portReady p x.hdr.cls) = some e.2 := by
    intro e he
    obtain ⟨d, -, hd⟩ := List.mem_filterMap.1 he
    obtain ⟨y, hy, rfl⟩ := Option.map_eq_some_iff.1 hd
    exact hy
  have hf0 : ∀ e ∈ heads, f.level p e.2 < 2 → f0.level p e.2 = f.level p e.2 := by
    intro e he hlevel
    refine Fabric.level_updNi rfl rfl rfl rfl (find?_hold_red (fun r hr heq => ?_) _)
    obtain ⟨hr, hred⟩ := List.mem_filter.1 hr
    have hsame : e.2 = r.2 := by
      have hdom := Fabric.domHead_domain (hheads e he)
      exact Option.some.inj ((hheads e he).symm.trans (by rw [← hheads r hr, heq, hdom]))
    rw [← hsame, decide_eq_true_eq] at hred
    omega
  have hpick : ∀ l < 2, pick l = (some x, g) → g.level p x = f.level p x := by
    intro l hl h
    unfold pick at h
    extract_lets a ds len cur at h
    rcases drrLoop quant len ds 2300 cur df0 with ⟨d, df⟩
    dsimp only at h
    obtain ⟨hx, rfl⟩ := Prod.mk.inj h
    obtain ⟨e, he, rfl⟩ := Option.map_eq_some_iff.1 (Option.ite_none_left_eq_some.1 hx).2
    obtain ⟨he, hlevel⟩ := List.mem_filter.1 (List.mem_of_find?_eq_some he)
    exact (Fabric.level_updNi rfl rfl rfl rfl rfl).trans (hf0 e he (by rw [beq_iff_eq.1 hlevel]; exact hl))
  split at h
  · exact hpick 0 (by decide) h
  · split at h
    · exact hpick 1 (by decide) h
    · cases h

end

/-- Settles O36: each rule's own packet goes where no earlier rule has one. -/
theorem injectionOrder : Obligations.InjectionOrder := by
  intro s p hm hk hp hs
  have h := gives_when (c := .niInject p) (s := s) rfl
    (b := fun f => f.moving && f.kind p != 0 && f.powered p && (f.ni p).inj.sending.isEmpty) (by simp [hm, hk, hp, hs])
  dsimp only at h ⊢
  generalize (Fabric.askTokens _ p).setReasons p = f at h ⊢
  have hcredit (hc : f.onlyAnswers p = true ∨ f.offer p 104 = none) :
      (if f.onlyAnswers p = true then none else f.offer p 104) = none := ite_eq_left_iff.2 hc.resolve_left
  refine ⟨fun u r hf => ?fault, fun hf x hx => ?slot, fun hf hslot => ⟨fun x hx => ?answer, fun ha =>
    ⟨fun x hopen hx => ?credit, fun hc => ⟨fun x hcc hx => ?signal, fun hsig y g hy => ?request⟩⟩⟩⟩
  case fault => simpa only [hf] using h
  case slot => simpa only [hf, hx] using h
  case answer => simpa only [hf, hslot, hx] using h
  case credit => simpa [hf, hslot, ha, hopen, hx] using h
  case signal =>
    simpa only [hf, hslot, ha, hcredit hc, ge_iff_le, if_pos hcc, hx] using h
  case request =>
    have hsignal : (if (f.ni p).inj.ccSig ≥ 65536 then f.offer p 102 else none) = none :=
      ite_eq_right_iff.2 fun hcc => hsig.resolve_left (Nat.not_lt.2 hcc)
    simp only [hf, hslot, ha, hcredit hc, hsignal, hy] at h
    cases y with
    | none => exact h
    | some x =>
      dsimp only at h ⊢
      rwa [Fabric.drrShot_level hy]

end Sys2Proof.Machine
end

section
/-! SUPPORT. The TSQ of a Core NI: what an update of a channel or of a counter changes, and what it leaves
(07 R161, R170). -/

namespace Sys2Proof.Machine

/-- An NI but for the channels and the counters of its TSQ. -/
def Ni.offTsq (n : Ni) : Ni := { n with tsq := { n.tsq with chans := [], ctrs := [] } }

/-- `g` differs from `f` at most in the channels and the counters of the TSQ at port `p`. -/
structure Fabric.OnlyTsq (p : Nat) (f g : Fabric) : Prop where
  rest : g.rest = f.rest
  fmu : g.fmu = f.fmu
  others : ∀ q, q ≠ p → g.ni q = f.ni q
  own : (g.ni p).offTsq = (f.ni p).offTsq

namespace Fabric.OnlyTsq
variable {p : Nat} {f g h : Fabric}

theorem refl (p : Nat) (f : Fabric) : Fabric.OnlyTsq p f f := ⟨rfl, rfl, fun _ _ => rfl, rfl⟩

theorem trans (hfg : Fabric.OnlyTsq p f g) (hgh : Fabric.OnlyTsq p g h) : Fabric.OnlyTsq p f h where
  rest := hgh.rest.trans hfg.rest
  fmu := hgh.fmu.trans hfg.fmu
  others q hq := (hgh.others q hq).trans (hfg.others q hq)
  own := hgh.own.trans hfg.own

section
variable (hfg : Fabric.OnlyTsq p f g)
include hfg

theorem time : g.time = f.time := (congrArg (·.2.1) hfg.rest :)
theorem bus : g.bus = f.bus := (congrArg (·.2.2.2.2.1) hfg.rest :)
theorem dies : g.dies = f.dies := (congrArg (·.2.2.2.2.2.1) hfg.rest :)
theorem stops : g.stops = f.stops := (congrArg (·.2.2.2.2.2.2.1) hfg.rest :)
theorem core : (g.ni p).core = (f.ni p).core := (congrArg Ni.core hfg.own :)
theorem probeSeq : (g.ni p).tsq.probeSeq = (f.ni p).tsq.probeSeq := (congrArg (·.tsq.probeSeq) hfg.own :)
theorem fip : (g.ni p).tsq.fip = (f.ni p).tsq.fip := (congrArg (·.tsq.fip) hfg.own :)
theorem pendingAborts : (g.ni p).tsq.pendingAborts = (f.ni p).tsq.pendingAborts := (congrArg (·.tsq.pendingAborts) hfg.own :)
theorem slots : (g.ni p).tsq.slots = (f.ni p).tsq.slots := (congrArg (·.tsq.slots) hfg.own :)
theorem slotWas : (g.ni p).tsq.slotWas = (f.ni p).tsq.slotWas := (congrArg (·.tsq.slotWas) hfg.own :)

end

end Fabric.OnlyTsq

section
variable (f : Fabric) (p c n : Nat) (g : Chan → Chan) (k : Counter → Counter)

@[simp] theorem Fabric.updChan_tsq_chan : (f.updChan (.tsq p c) g).chan (.tsq p c) = g (f.chan (.tsq p c)) := by
  simp [Fabric.updChan, Fabric.setChan, Fabric.chan]

@[simp] theorem Fabric.updChan_tsq_ctr : (f.updChan (.tsq p c) g).ctr (.tsq p c) = f.ctr (.tsq p c) := by
  funext m
  simp [Fabric.updChan, Fabric.setChan, Fabric.ctr]

@[simp] theorem Fabric.updChan_time (w : Seqr) : (f.updChan w g).time = f.time := by cases w <;> rfl

@[simp] theorem Fabric.updCtr_tsq_chan (a : Nat) : (f.updCtr (.tsq p a) n k).chan (.tsq p c) = f.chan (.tsq p c) := by
  simp [Fabric.updCtr, Fabric.chan]

theorem Fabric.updCtr_tsq_ctr (m : Nat) : (f.updCtr (.tsq p c) n k).ctr (.tsq p c) m =
    if m = n then k ((f.ctr (.tsq p c) m).now f.time.fcc) else f.ctr (.tsq p c) m := by
  obtain ⟨hself, hother⟩ := f.updCtr_tsq_ctrs p c n k
  split
  next h => exact h ▸ hself
  next h => exact hother m h

/-- A write of an NI that keeps it but for its channels and counters. -/
theorem Fabric.updNi_onlyTsq {u : Ni → Ni} (h : (u (f.ni p)).offTsq = (f.ni p).offTsq) :
    Fabric.OnlyTsq p f (f.updNi p u) where
  rest := rfl
  fmu := rfl
  others _ hq := f.updNi_ni_ne u hq
  own := by rw [Fabric.updNi_ni_self, h]

theorem Fabric.updChan_onlyTsq : Fabric.OnlyTsq p f (f.updChan (.tsq p c) g) := by
  unfold Fabric.updChan Fabric.setChan
  exact f.updNi_onlyTsq p rfl

theorem Fabric.updCtr_onlyTsq : Fabric.OnlyTsq p f (f.updCtr (.tsq p c) n k) := by
  unfold Fabric.updCtr
  exact f.updNi_onlyTsq p rfl

end

/-! ## An op's start (07 R162, R163, R172) -/

section
variable (f : Fabric) (p c : Nat) (e : QEntry)

/-- An op of a TSQ channel as it stands once it has started. -/
def Fabric.startedOp : QEntry := { e with
  started := true
  work := { e.work with dom := BitVec.ofNat 6 (fld (f.niReg p (0x400 + 16 * c)) 5 0), startAt := f.time.fcc } }

/-- The channel of an op that starts. -/
def Fabric.startedChan : Chan :=
  let k := f.chan (.tsq p c)
  Chan.settleProg { k with
    queue := k.queue.map fun x => if x.eid == e.eid then f.startedOp p c e else x
    progOps := k.progOps.filter (· != e.eid), started := k.started + 1 }

theorem Fabric.begin_tsq : f.begin (.tsq p c) e =
    let f1 := f.updChan (.tsq p c) fun _ => f.startedChan p c e
    if opCrst e.op then f1.updCtr (.tsq p c) (opCnt e.op) Counter.crst else f1 := rfl

theorem Fabric.begin_tsq_chan : (f.begin (.tsq p c) e).chan (.tsq p c) = f.startedChan p c e := by
  rw [Fabric.begin_tsq]
  dsimp only
  split <;> simp

theorem Fabric.begin_tsq_ctr (n : Nat) : (f.begin (.tsq p c) e).ctr (.tsq p c) n =
    if opCrst e.op = true ∧ n = opCnt e.op then ((f.ctr (.tsq p c) n).now f.time.fcc).crst else f.ctr (.tsq p c) n := by
  rw [Fabric.begin_tsq]
  dsimp only
  split
  next h => simp [Fabric.updCtr_tsq_ctr, h]
  next h => simp [h]

theorem Fabric.begin_onlyTsq : Fabric.OnlyTsq p f (f.begin (.tsq p c) e) := by
  rw [Fabric.begin_tsq]
  dsimp only
  split
  · exact (f.updChan_onlyTsq ..).trans (Fabric.updCtr_onlyTsq ..)
  · exact f.updChan_onlyTsq ..

end

section
variable (k : Chan)

/-- The end of a program clears the program pointer and leaves the rest of the channel (07 R153). -/
theorem Chan.settleProg_eq : ∃ pr, k.settleProg = { k with prog := pr } := by
  unfold Chan.settleProg
  split
  · split <;> exact ⟨_, rfl⟩
  · exact ⟨_, rfl⟩

@[simp] theorem Chan.settleProg_queue : k.settleProg.queue = k.queue := by
  obtain ⟨_, h⟩ := k.settleProg_eq
  rw [h]
@[simp] theorem Chan.settleProg_started : k.settleProg.started = k.started := by
  obtain ⟨_, h⟩ := k.settleProg_eq
  rw [h]
@[simp] theorem Chan.settleProg_drejN : k.settleProg.drejN = k.drejN := by
  obtain ⟨_, h⟩ := k.settleProg_eq
  rw [h]
@[simp] theorem Chan.settleProg_drejOp : k.settleProg.drejOp = k.drejOp := by
  obtain ⟨_, h⟩ := k.settleProg_eq
  rw [h]

end

/-- The entry of a number, after all entries of that number have been replaced. -/
theorem find?_replace_eid {l : List QEntry} {e x : QEntry} {i : Nat} (hx : x.eid = i)
    (h : l.find? (fun y => y.eid == i) = some e) :
    (l.map fun y => if y.eid == i then x else y).find? (fun y => y.eid == i) = some x := by
  have he : (e.eid == i) = true := List.find?_some (p := fun y : QEntry => y.eid == i) h
  have hsame : ((fun y : QEntry => y.eid == i) ∘ fun y => if y.eid == i then x else y) = fun y => y.eid == i := by
    funext y
    simp only [Function.comp_apply]
    split <;> simp [*]
  rw [List.find?_map, hsame, h, Option.map_some, if_pos he]

theorem Fabric.begin_entry {f : Fabric} {p c : Nat} {e : QEntry} (h : f.entry (.tsq p c) e.eid = some e) :
    (f.begin (.tsq p c) e).entry (.tsq p c) e.eid = some (f.startedOp p c e) := by
  rw [Fabric.entry, Fabric.begin_tsq_chan, Fabric.startedChan, Chan.settleProg_queue]
  exact find?_replace_eid rfl h

/-- Settles O2: the start writes one entry of one channel and resets one counter. -/
theorem startOfAnOp : Obligations.StartOfAnOp := by
  intro f p c e he _ w g
  have hg : Fabric.OnlyTsq p f g := f.begin_onlyTsq p c e
  have hcount : (g.chan w).started = (f.chan w).started + 1 := by
    rw [Fabric.begin_tsq_chan, Fabric.startedChan, Chan.settleProg_started]
  exact ⟨hcount, ⟨f.startedOp p c e, Fabric.begin_entry he, rfl, rfl, rfl, rfl⟩, f.begin_tsq_ctr p c e, hg.others, hg.stops,
    hg.dies, hg.fmu, hg.time, hg.bus⟩

end Sys2Proof.Machine
end

section
/-! SUPPORT. The completion of an op that is alone on its TSQ channel (07 R170), and the commands that bring one
about (07 R168, R174, R178). -/

namespace Sys2Proof.Machine

section
variable {f : Fabric} {p c : Nat} {e : QEntry}

/-- An op that has not been issued passes its channel on when it completes (07 R162). -/
theorem Fabric.unissued_passes (f : Fabric) (w : Seqr) (e : QEntry) :
    (if e.issued then f else f.passOn w e.op) = f ∨
    (if e.issued then f else f.passOn w e.op) = f.updChan w fun c => { c with passedAt := some f.time.fcc } := by
  split
  · exact .inl rfl
  · exact f.passOn_eq w e.op

theorem Fabric.retire_tsq (f : Fabric) (p c : Nat) (e : QEntry) (st : Status) (info : BitVec 48) :
    f.retire (.tsq p c) e st info =
      ((if e.issued then f else f.passOn (.tsq p c) e.op).updChan (.tsq p c) fun k => { k with
        queue := k.queue.filter fun x => x.eid != e.eid, progOps := k.progOps.filter (· != e.eid) }).updCtr (.tsq p c)
        (opCnt e.op) fun k => k.complete c (opCinc e.op) st info := by
  simp [Fabric.retire, seqChan]

theorem Fabric.retire_queue (st : Status) (info : BitVec 48) : ((f.retire (.tsq p c) e st info).chan (.tsq p c)).queue =
    (f.chan (.tsq p c)).queue.filter (fun x => x.eid != e.eid) := by
  rcases f.unissued_passes (.tsq p c) e with h | h <;> simp [Fabric.retire_tsq, h]

theorem Fabric.retire_aborts (st : Status) (info : BitVec 48) :
    ((f.retire (.tsq p c) e st info).chan (.tsq p c)).aborts = (f.chan (.tsq p c)).aborts := by
  rcases f.unissued_passes (.tsq p c) e with h | h <;> simp [Fabric.retire_tsq, h]

theorem Fabric.retire_ctr (st : Status) (info : BitVec 48) (n : Nat) :
    (f.retire (.tsq p c) e st info).ctr (.tsq p c) n =
      if n = opCnt e.op then ((f.ctr (.tsq p c) n).now f.time.fcc).complete c (opCinc e.op) st info
      else f.ctr (.tsq p c) n := by
  rcases f.unissued_passes (.tsq p c) e with h | h <;> simp [Fabric.retire_tsq, h, Fabric.updCtr_tsq_ctr]

theorem Fabric.retire_onlyTsq (st : Status) (info : BitVec 48) :
    Fabric.OnlyTsq p f (f.retire (.tsq p c) e st info) := by
  have hpass : Fabric.OnlyTsq p f (if e.issued then f else f.passOn (.tsq p c) e.op) := by
    rcases f.unissued_passes (.tsq p c) e with h | h <;> rw [h]
    · exact .refl p f
    · exact f.updChan_onlyTsq ..
  rw [Fabric.retire_tsq]
  exact (hpass.trans (Fabric.updChan_onlyTsq ..)).trans (Fabric.updCtr_onlyTsq ..)

/-- Nothing is left to settle on a channel that is empty and has no `ABORT` waiting. -/
theorem Fabric.settle_empty {w : Seqr} (hq : (f.chan w).queue = []) (ha : (f.chan w).aborts = []) : f.settle w = f := by
  simp [Fabric.settle, hq, ha]

/-- The state `g` that the completion of an op alone on its channel makes of `f`: the channel is empty, the op's
counter has its completion, and nothing else has changed. -/
structure Fabric.Completes (p c : Nat) (op : Op) (st : Status) (info : BitVec 48) (f g : Fabric) : Prop where
  queue : (g.chan (.tsq p c)).queue = []
  ctr : ∀ n, g.ctr (.tsq p c) n = if n = opCnt op then ((f.ctr (.tsq p c) n).now f.time.fcc).complete c (opCinc op) st info
    else f.ctr (.tsq p c) n
  frame : Fabric.OnlyTsq p f g

theorem Fabric.finish_only (hq : (f.chan (.tsq p c)).queue = [e]) (hab : (f.chan (.tsq p c)).aborts = [])
    (he : e.aborted = false) (st : Status) (info : BitVec 48) :
    Fabric.Completes p c e.op st info f (f.finish (.tsq p c) e.eid st info) := by
  have hempty : ((f.retire (.tsq p c) e st info).chan (.tsq p c)).queue = [] := by simp [Fabric.retire_queue, hq]
  have hfinish : f.finish (.tsq p c) e.eid st info = f.retire (.tsq p c) e st info := by
    rw [Fabric.finish, show f.entry (.tsq p c) e.eid = some e by simp [Fabric.entry, hq]]
    simp [he, Fabric.settle_empty hempty ((Fabric.retire_aborts ..).trans hab)]
  rw [hfinish]
  exact ⟨hempty, Fabric.retire_ctr st info, Fabric.retire_onlyTsq st info⟩

/-- What has come before the completion, if it has left the counters and the time alone. -/
theorem Fabric.Completes.after {f' g : Fabric} {op : Op} {st : Status} {info : BitVec 48}
    (h : Fabric.Completes p c op st info f' g) (hctr : f'.ctr (.tsq p c) = f.ctr (.tsq p c)) (htime : f'.time = f.time) :
    ∀ n, g.ctr (.tsq p c) n = if n = opCnt op then ((f.ctr (.tsq p c) n).now f.time.fcc).complete c (opCinc op) st info
      else f.ctr (.tsq p c) n := by
  rw [← hctr, ← htime]
  exact h.ctr

end

/-! ## WAIT (07 R174) -/

/-- A waiting WAIT compares. -/
theorem gives_wait_running {s : State} {w : Seqr} {e : QEntry} (hs : s.fab.seqLive w = true)
    (hr : s.fab.running w ocWait = some e) (he : e.aborted = false) :
    gives (.wait w) s (if fld e.op 47 0 ≤ (s.fab.compared w (fld e.op 95 88)).toNat then
      (s.fab.updChan w fun k => { k with reason := if k.halted then 8 else 0 }).finish w e.eid .ok 0 else s.fab) := by
  have h := gives_when (c := .wait w) (b := (·.seqLive w)) rfl hs
  simpa [hr, Fabric.compareWait, he, waitHolds] using h

/-- Settles O6: the comparison has two outcomes. -/
theorem waitCompares : Obligations.WaitCompares := by
  intro s p c e hs hr he w f v
  have h := gives_wait_running hs hr he
  refine ⟨fun hv => ?below, fun hv => ?reached, fun hv hq hab => ?alone⟩
  case below => rwa [if_neg (Nat.not_le.2 hv)] at h
  case reached => rwa [if_pos hv] at h
  case alone =>
    rw [if_pos hv] at h
    have hdone := Fabric.finish_only (f := s.fab.updChan (.tsq p c) fun k => { k with reason := if k.halted then 8 else 0 })
      (by rwa [Fabric.updChan_tsq_chan]) (by rwa [Fabric.updChan_tsq_chan]) he .ok 0
    have hctr := hdone.after (f.updChan_tsq_ctr ..) (f.updChan_time ..)
    have hframe := (f.updChan_onlyTsq ..).trans hdone.frame
    exact h.answers ⟨hdone.queue, (hctr _).trans (if_pos rfl), fun n hn => (hctr n).trans (if_neg hn), hframe.others,
      hframe.stops, hframe.dies, hframe.fmu, hframe.time⟩

/-! ## PROBE (07 R178) -/

section
variable (f : Fabric) (p c m : Nat) (bs : Bytes)

theorem Fabric.lmWrite_chan : (f.lmWrite p m bs).chan (.tsq p c) = f.chan (.tsq p c) := by
  simp [Fabric.lmWrite, Fabric.chan]

theorem Fabric.lmWrite_ctr : (f.lmWrite p m bs).ctr (.tsq p c) = f.ctr (.tsq p c) := by
  funext n
  simp [Fabric.lmWrite, Fabric.ctr]

end

theorem Fabric.beginWrite_onlyTsq (f : Fabric) (p c eid a : Nat) (bs : Bytes) :
    Fabric.OnlyTsq p f (f.beginWrite (.tsq p c) eid a bs) := by
  unfold Fabric.beginWrite Fabric.updWork Fabric.updEntry
  exact f.updChan_onlyTsq ..

/-- The op at the head of a TSQ channel starts where nothing holds it back. -/
theorem Fabric.startOp_startable {f : Fabric} {p c oc : Nat} {e : QEntry} {k : Fabric → QEntry → Fabric}
    (hs : startable f p c e) (ho : opcOf e.op = oc) : f.startOp (.tsq p c) oc k = k (f.begin (.tsq p c) e) e := by
  obtain ⟨hlive, hcan, hhead⟩ := hs
  rw [Fabric.startOp, Fabric.when_of _ hlive]
  simp [hhead, ho, hcan]

/-- A PROBE that starts takes the next number, whatever it captures. -/
theorem probe_starts {s : State} {p c : Nat} {e : QEntry} (hs : startable s.fab p c e) (ho : opcOf e.op = ocProbe) :
    ∃ block, gives (.probe p c) s (((s.fab.begin (.tsq p c) e).updNi p fun n =>
      { n with tsq := { n.tsq with probeSeq := nextProbe (s.fab.ni p).tsq.probeSeq } }).beginWrite (.tsq p c) e.eid
        (fld e.op 31 0) block) := by
  have h : gives (.probe p c) s (s.fab.startOp (.tsq p c) ocProbe _) := rfl
  rw [Fabric.startOp_startable hs ho] at h
  exact ⟨_, h⟩

/-- Settles O7: the start writes the number and the op's entry; the visible block is in memory and the op is gone. -/
theorem probeCapturesThenWrites : Obligations.ProbeCapturesThenWrites := by
  refine ⟨fun s p c e hs ho => ?starts, fun s p c e r hs hr hq he hab hruns => ?visible⟩
  case starts =>
    obtain ⟨block, h⟩ := probe_starts hs ho
    refine h.answers ⟨?number, fun q hq => ?others⟩
    case number =>
      rw [(Fabric.beginWrite_onlyTsq ..).probeSeq, Fabric.updNi_ni_self]
    case others =>
      rw [(Fabric.beginWrite_onlyTsq ..).others q hq, Fabric.updNi_ni_ne _ _ hq, (s.fab.begin_onlyTsq p c e).others q hq]
  case visible =>
    have h := gives_when (c := .probeWriteVisible p c) (b := (·.seqLive (.tsq p c))) rfl hs
    simp only [hr, hruns, List.foldl_cons, List.foldl_nil] at h
    have hdone := Fabric.finish_only (f := s.fab.lmWrite p r.local_ r.data) (e := e)
      (by rw [Fabric.lmWrite_chan, hq]) (by rw [Fabric.lmWrite_chan, hab]) he .ok 0
    exact h.answers ⟨(congrArg CoreSide.lm hdone.frame.core :).trans (Fabric.lmWrite_lm ..), hdone.queue,
      (hdone.after (Fabric.lmWrite_ctr ..) rfl _).trans (if_pos rfl)⟩

/-! ## LDD (07 R166, R168) -/

/-- A slot that was last written in the present fc is captured as it was before. -/
theorem Fabric.slot_of_present {f : Fabric} {p n : Nat} {o : Option (BitVec 512)}
    (h : (f.ni p).tsq.slotWas.find? n = some (f.time.fcc, o)) : f.slot p n = o := by
  rw [Fabric.slot, h]
  exact if_pos rfl

/-- A slot that was last written in another fc. -/
theorem Fabric.slot_of_earlier {f : Fabric} {p n t : Nat} {o : Option (BitVec 512)}
    (h : (f.ni p).tsq.slotWas.find? n = some (t, o)) (ht : t ≠ f.time.fcc) : f.slot p n = (f.ni p).tsq.slots.find? n := by
  rw [Fabric.slot, h]
  exact if_neg ht

/-- What an op captures of a slot rests on the slot, its mark and the fc. -/
theorem Fabric.slot_congr {f g : Fabric} {p k : Nat} (hwas : (g.ni p).tsq.slotWas.find? k = (f.ni p).tsq.slotWas.find? k)
    (hslots : (g.ni p).tsq.slots.find? k = (f.ni p).tsq.slots.find? k) (htime : g.time = f.time) :
    g.slot p k = f.slot p k := by
  rw [Fabric.slot, Fabric.slot, hwas, hslots, htime]

section
variable (f : Fabric) (p c n : Nat) (d : Option (BitVec 512))

theorem Fabric.writeSlot_chan : (f.writeSlot p n d).chan (.tsq p c) = f.chan (.tsq p c) := by
  simp [Fabric.writeSlot, Fabric.chan]

theorem Fabric.writeSlot_ctr : (f.writeSlot p n d).ctr (.tsq p c) = f.ctr (.tsq p c) := by
  funext m
  simp [Fabric.writeSlot, Fabric.ctr]

theorem Fabric.writeSlot_slots (k : Nat) : ((f.writeSlot p n d).ni p).tsq.slots.find? k =
    if k = n then d else (f.ni p).tsq.slots.find? k := by
  rw [Fabric.writeSlot, Fabric.updNi_ni_self]
  by_cases h : k = n
  · cases d <;> simp [h]
  · cases d <;> simp [NMap.find?_put_ne, NMap.find?_del_ne, h]

/-- The written slot is marked with the present fc and what an op of that fc captures. -/
theorem Fabric.writeSlot_slotWas (k : Nat) : ((f.writeSlot p n d).ni p).tsq.slotWas.find? k =
    if k = n then some (f.time.fcc, f.slot p n) else (f.ni p).tsq.slotWas.find? k := by
  rw [Fabric.writeSlot, Fabric.updNi_ni_self]
  by_cases h : k = n
  · rw [if_pos h, h]
    exact NMap.find?_put_self ..
  · rw [if_neg h]
    exact NMap.find?_put_ne _ _ h

/-- An op of the present fc captures what the slots held before it. -/
theorem Fabric.writeSlot_slot (k : Nat) : (f.writeSlot p n d).slot p k = f.slot p k := by
  by_cases h : k = n
  · rw [h]
    exact Fabric.slot_of_present ((f.writeSlot_slotWas p n d n).trans (if_pos rfl))
  · exact Fabric.slot_congr ((f.writeSlot_slotWas p n d k).trans (if_neg h)) ((f.writeSlot_slots p n d k).trans (if_neg h)) rfl

end

theorem Fabric.OnlyTsq.slot {p : Nat} {f g : Fabric} (h : Fabric.OnlyTsq p f g) (k : Nat) : g.slot p k = f.slot p k := by
  exact Fabric.slot_congr (by rw [h.slotWas]) (by rw [h.slots]) h.time

/-- The read of an LDD has ended: its reason is restored, and its slot is written or cleared as it completes. -/
def Fabric.lddEnds (f : Fabric) (p c : Nat) (e : QEntry) (d : Option (BitVec 512)) (st : Status) (info : BitVec 48) : Fabric :=
  ((f.updChan (.tsq p c) fun k => { k with reason := if k.halted then 8 else 0 }).writeSlot p (fld e.op 95 90) d).finish
    (.tsq p c) e.eid st info

theorem gives_lddSlotWrite {s : State} {p c : Nat} {e : QEntry} (d : BitVec 512) (hs : s.fab.seqLive (.tsq p c) = true)
    (hr : s.fab.running (.tsq p c) ocLdd = some e) (he : e.aborted = false) :
    gives (.lddSlotWrite p c d) s (if descOk d then s.fab.lddEnds p c e (some d) .ok 0
      else s.fab.lddEnds p c e none .malformed (infoMal e.op 0x02 0)) := by
  have h := gives_when (c := .lddSlotWrite p c d) (b := (·.seqLive (.tsq p c))) rfl hs
  simpa [hr, he, Fabric.lddEnds] using h

section
variable {f : Fabric} {p c : Nat} {e : QEntry} {d : Option (BitVec 512)} {st : Status} {info : BitVec 48}
  (hq : (f.chan (.tsq p c)).queue = [e]) (hab : (f.chan (.tsq p c)).aborts = []) (he : e.aborted = false)
include hq hab he

/-- The end of an LDD that is alone on its channel completes the op in the fabric with the slot written. -/
theorem Fabric.lddEnds_completes : Fabric.Completes p c e.op st info
    ((f.updChan (.tsq p c) fun k => { k with reason := if k.halted then 8 else 0 }).writeSlot p (fld e.op 95 90) d)
    (f.lddEnds p c e d st info) :=
  Fabric.finish_only (by rwa [Fabric.writeSlot_chan, Fabric.updChan_tsq_chan])
    (by rwa [Fabric.writeSlot_chan, Fabric.updChan_tsq_chan]) he st info

theorem Fabric.lddEnds_slots (k : Nat) : ((f.lddEnds p c e d st info).ni p).tsq.slots.find? k =
    if k = fld e.op 95 90 then d else (f.ni p).tsq.slots.find? k := by
  rw [(Fabric.lddEnds_completes hq hab he).frame.slots, Fabric.writeSlot_slots, (f.updChan_onlyTsq ..).slots]

/-- In the fc of the write the slots are captured as they were. -/
theorem Fabric.lddEnds_slot (k : Nat) : (f.lddEnds p c e d st info).slot p k = f.slot p k := by
  rw [(Fabric.lddEnds_completes hq hab he).frame.slot, Fabric.writeSlot_slot, (f.updChan_onlyTsq ..).slot]

theorem Fabric.lddEnds_slotWas : ((f.lddEnds p c e d st info).ni p).tsq.slotWas.find? (fld e.op 95 90) =
    some (f.time.fcc, f.slot p (fld e.op 95 90)) := by
  rw [(Fabric.lddEnds_completes hq hab he).frame.slotWas, Fabric.writeSlot_slotWas, if_pos rfl,
    (f.updChan_onlyTsq ..).slot, Fabric.updChan_time]

/-- In every other fc the slot is captured as it was written. -/
theorem Fabric.lddEnds_slot_later {t : Nat} (ht : t ≠ f.time.fcc) :
    let g := f.lddEnds p c e d st info
    { g with time := { g.time with fcc := t } }.slot p (fld e.op 95 90) = d := by
  intro g
  have hslots : (g.ni p).tsq.slots.find? (fld e.op 95 90) = d := (Fabric.lddEnds_slots hq hab he _).trans (if_pos rfl)
  exact (Fabric.slot_of_earlier (f := { g with time := { g.time with fcc := t } }) (Fabric.lddEnds_slotWas hq hab he)
    ht.symm).trans hslots

theorem Fabric.lddEnds_ctr (n : Nat) : (f.lddEnds p c e d st info).ctr (.tsq p c) n =
    if n = opCnt e.op then ((f.ctr (.tsq p c) n).now f.time.fcc).complete c (opCinc e.op) st info else f.ctr (.tsq p c) n :=
  (Fabric.lddEnds_completes hq hab he).after ((Fabric.writeSlot_ctr ..).trans (f.updChan_tsq_ctr ..)) rfl n

theorem Fabric.lddEnds_others {q : Nat} (hqp : q ≠ p) : (f.lddEnds p c e d st info).ni q = f.ni q := by
  rw [(Fabric.lddEnds_completes hq hab he).frame.others q hqp, Fabric.writeSlot, Fabric.updNi_ni_ne _ _ hqp,
    (f.updChan_onlyTsq ..).others q hqp]

end

/-- Settles O10: the two ends of an LDD differ in the slot's new content and the status. -/
theorem lddWritesItsSlot : Obligations.LddWritesItsSlot := by
  intro s p c d e w n ends hs hr hq he hab
  have h := gives_lddSlotWrite d hs hr he
  have hends (o : Option (BitVec 512)) (st : Status) (info : BitVec 48) : ends st info (s.fab.lddEnds p c e o st info) := by
    have hdone := Fabric.lddEnds_completes (d := o) (st := st) (info := info) hq hab he
    exact ⟨fun k hk => (Fabric.lddEnds_slots hq hab he k).trans (if_neg hk), Fabric.lddEnds_slot hq hab he, hdone.queue,
      (Fabric.lddEnds_ctr hq hab he _).trans (if_pos rfl), fun k hk => (Fabric.lddEnds_ctr hq hab he k).trans (if_neg hk),
      fun q hqp => Fabric.lddEnds_others hq hab he hqp, hdone.frame.stops, hdone.frame.fmu, hdone.frame.time⟩
  refine ⟨fun hd => ?valid, fun hd => ?invalid⟩
  case valid =>
    rw [if_pos hd] at h
    exact h.answers ⟨(Fabric.lddEnds_slots hq hab he n).trans (if_pos rfl),
      fun t ht => Fabric.lddEnds_slot_later hq hab he ht, hends ..⟩
  case invalid =>
    rw [if_neg (by simp [hd])] at h
    exact h.answers ⟨(Fabric.lddEnds_slots hq hab he n).trans (if_pos rfl), hends ..⟩

end Sys2Proof.Machine
end

section
/-! SUPPORT. A WAIT whose time has passed and an ABORT that comes late (07 R174, R176); what issue and fetch leave of
a channel (07 R151-R153, R159, R160). -/

namespace Sys2Proof.Machine

/-! ## WAIT_TIMEOUT and ABORT -/

/-- The time of a waiting WAIT has passed. -/
theorem gives_waitTimeout {s : State} {w : Seqr} {e : QEntry} (hs : s.fab.seqLive w = true)
    (hr : s.fab.running w ocWait = some e) (he : e.aborted = false) (htmo : fld e.op 79 64 ≠ 0)
    (hdue : s.fab.due (e.work.startAt + fld e.op 79 64 * 1024 * s.fab.unit) = true) :
    gives (.waitTimeout w) s
      (let f1 := s.fab.reach (e.work.startAt + fld e.op 79 64 * 1024 * s.fab.unit)
       let f2 := f1.updChan w fun k => { k with reason := if k.halted then 8 else 0 }
       if waitHolds (f1.compared w (fld e.op 95 88)) e.op then f2.finish w e.eid .ok 0
       else
         let f3 := f2.finish w e.eid .timeout 0
         if bit e.op 87 then f3.halt w else f3) := by
  have h := gives_when (c := .waitTimeout w) (b := (·.seqLive w)) rfl hs
  simpa only [hr, he, hdue, beq_eq_false_iff_ne.2 htmo, Bool.not_true, Bool.or_self, Bool.false_eq_true, if_false] using h

/-- The oldest ABORT taken at a port leaves the list of those that wait. -/
def Fabric.takeAbort (f : Fabric) (p : Nat) (rest : List (BitVec 128)) : Fabric :=
  f.updNi p fun n => { n with tsq := { n.tsq with pendingAborts := rest } }

section
variable (f : Fabric) (p c : Nat) (rest : List (BitVec 128))

theorem Fabric.takeAbort_chan : (f.takeAbort p rest).chan (.tsq p c) = f.chan (.tsq p c) := by
  simp [Fabric.takeAbort, Fabric.chan]

theorem Fabric.takeAbort_ctr : (f.takeAbort p rest).ctr (.tsq p c) = f.ctr (.tsq p c) := by
  funext n
  simp [Fabric.takeAbort, Fabric.ctr]

end

/-- An ABORT of an empty channel ends its program, releases it and completes late. -/
theorem gives_abort_empty {s : State} {p : Nat} {op : BitVec 128} {rest : List (BitVec 128)}
    (hs : s.fab.seqLive (.tsq p 0) = true) (hp : (s.fab.ni p).tsq.pendingAborts = op :: rest)
    (hq : (s.fab.chan (.tsq p (fld op 95 92))).queue = []) :
    gives (.abort p) s (((s.fab.takeAbort p rest).updChan (.tsq p (fld op 95 92)) fun c =>
      { c with prog := none, progOps := [], halted := false, reason := 0 }).updCtr (.tsq p (fld op 95 92)) (opCnt op)
        fun k => (if opCrst op then k.crst else k).complete (fld op 95 92) (opCinc op) .abortLate 0) := by
  have h := gives_when (c := .abort p) (b := (·.seqLive (.tsq p 0))) rfl hs
  have hempty : ((s.fab.takeAbort p rest).chan (.tsq p (fld op 95 92))).queue.isEmpty = true := by
    rw [Fabric.takeAbort_chan, hq, List.isEmpty_nil]
  simp only [hp] at h
  rwa [← Fabric.takeAbort, if_pos hempty] at h

/-- Settles O11: the timeout is its equation, and a late ABORT changes its channel and its counter. -/
theorem waitTimeoutAndLateAbort : Obligations.WaitTimeoutAndLateAbort := by
  refine ⟨fun s p c e => gives_waitTimeout, ?late⟩
  intro s p op rest w hs hp hq
  refine (gives_abort_empty hs hp hq).answers ⟨?halted, ?queue, ?pending, ?ctr⟩
  case halted => rw [Fabric.updCtr_tsq_chan, Fabric.updChan_tsq_chan]
  case queue => rw [Fabric.updCtr_tsq_chan, Fabric.updChan_tsq_chan, Fabric.takeAbort_chan, hq]
  case pending =>
    rw [(Fabric.updCtr_onlyTsq ..).pendingAborts, (Fabric.updChan_onlyTsq ..).pendingAborts, Fabric.takeAbort, Fabric.updNi_ni_self]
  case ctr =>
    rw [Fabric.updCtr_tsq_ctr, if_pos rfl, Fabric.updChan_tsq_ctr, Fabric.takeAbort_ctr, Fabric.updChan_time]
    rfl

/-! ## Issue and fetch -/

section
variable (f : Fabric) (p c : Nat) (op : Op)

theorem Fabric.fipRsp_chan (r : FipRsp) : (f.fipRsp p r).chan (.tsq p c) = f.chan (.tsq p c) := by
  simp [Fabric.fipRsp, Fabric.chan]

theorem Fabric.fipRsp_fip (r : FipRsp) : ((f.fipRsp p r).ni p).tsq.fip = r := by simp [Fabric.fipRsp]

/-- The count and the fault of a rejected op leave the TSQ alone. -/
theorem Fabric.opPriv_tsq (q : Nat) : ((f.opPriv p c op).ni q).tsq = (f.ni q).tsq := by
  have herr : ((f.niErr p 9).ni q).tsq = (f.ni q).tsq := f.updNi_part Ni.tsq rfl q
  unfold Fabric.opPriv
  dsimp only
  split
  · exact (Fabric.updNi_part _ Ni.tsq rfl q).trans herr
  · exact herr

theorem Fabric.opPriv_chan : (f.opPriv p c op).chan (.tsq p c) = f.chan (.tsq p c) :=
  congrArg (·.chans.get c {}) (f.opPriv_tsq p c op p)

/-- An op joins the end of its channel's queue under the next number. -/
theorem Fabric.queueOp_chan (fetched : Bool) : ∃ id ops, (f.queueOp p c op fetched).chan (.tsq p c) =
    { f.chan (.tsq p c) with queue := (f.chan (.tsq p c)).queue ++ [{ eid := id, op := op }], progOps := ops } := by
  refine ⟨(f.ni p).tsq.nextEid, if fetched then (f.chan (.tsq p c)).progOps ++ [(f.ni p).tsq.nextEid]
    else (f.chan (.tsq p c)).progOps, ?_⟩
  rw [Fabric.queueOp, Fabric.updChan_tsq_chan]
  simp only [Fabric.chan, Fabric.updNi_ni_self]

theorem Fabric.queueOp_fip (fetched : Bool) : ((f.queueOp p c op fetched).ni p).tsq.fip = (f.ni p).tsq.fip := by
  rw [Fabric.queueOp, (Fabric.updChan_onlyTsq ..).fip, Fabric.updNi_ni_self]

theorem Fabric.queueOp_others (fetched : Bool) {q : Nat} (hq : q ≠ p) :
    (f.queueOp p c op fetched).ni q = f.ni q := by
  rw [Fabric.queueOp, (Fabric.updChan_onlyTsq ..).others q hq, Fabric.updNi_ni_ne _ _ hq]

end

/-- The status answered in the fc after an op was accepted, and nothing after that (07 R151). -/
theorem FipRsp.passed_spec (r : FipRsp) : (r.passed 1).accept = false ∧ (r.passed 1).valid = r.accept ∧
    (r.accept = true → (r.passed 1).status = r.next) ∧ ∀ n, n ≠ 1 → r.passed n = {} := by
  refine ⟨?_, ?_, fun ha => by simp [FipRsp.passed, ha], fun n hn => by simp [FipRsp.passed, hn]⟩ <;>
    cases ha : r.accept <;> simp [FipRsp.passed, ha]

section
variable {s : State} {p : Nat} {op : BitVec 128} (hs : s.fab.seqLive (.tsq p 0) = true) (ho : opcOf op ≠ ocAbort)
include hs ho

/-- An op on the Fabric Issue Port: not taken, or taken and queued or rejected. -/
theorem gives_fipIssue : gives (.fipIssue p op) s
    (if s.fab.fipReady p (opChan op) = false then s.fab.fipRsp p { (s.fab.ni p).tsq.fip with accept := false }
     else
      let st := decodeOp s.fab.variant .fip op
      let f1 := s.fab.fipRsp p { (s.fab.ni p).tsq.fip with accept := true, next := st }
      if st ≠ .ok then f1.opPriv p (opChan op) op else f1.queueOp p (opChan op) op false) := by
  have h := gives_when (c := .fipIssue p op) (b := (·.seqLive (.tsq p 0))) rfl hs
  simpa [ho] using h

end

/-- Settles O8: the three outcomes of an issue, and the outputs of the port. -/
theorem fipIssueQueuesTheOp : Obligations.FipIssueQueuesTheOp := by
  intro s p op hs ho c w
  have h := gives_fipIssue hs ho
  refine ⟨fun hready hd => ?queued, fun hready hd => ?rejected, fun hready => ?refused, FipRsp.passed_spec⟩
  case queued =>
    rw [if_neg (by simp [c, hready] : ¬ s.fab.fipReady p (opChan op) = false)] at h
    simp only [hd, ne_eq, not_true_eq_false, if_false] at h
    obtain ⟨id, ops, hchan⟩ := (s.fab.fipRsp p { (s.fab.ni p).tsq.fip with accept := true, next := .ok }).queueOp_chan p c op false
    refine h.answers ⟨?_, ⟨id, ?_⟩, fun q hq => ?_⟩
    · rw [Fabric.queueOp_fip, Fabric.fipRsp_fip]
    · rw [hchan, Fabric.fipRsp_chan]
    · rw [Fabric.queueOp_others _ _ _ _ _ hq]
      exact Fabric.updNi_ni_ne _ _ hq
  case rejected =>
    rw [if_neg (by simpa using hready)] at h
    simp only [ne_eq, hd, not_false_eq_true, if_true] at h
    refine h.answers ⟨?_, ?_⟩
    · rw [Fabric.opPriv_tsq, Fabric.fipRsp_fip]
    · rw [Fabric.opPriv_chan, Fabric.fipRsp_chan]
  case refused =>
    rw [if_pos hready] at h
    exact h.answers ⟨Fabric.fipRsp_fip .., congrArg Chan.queue (Fabric.fipRsp_chan ..)⟩

/-- A program fetch: the pointer moves, and the op is queued or rejected. -/
theorem gives_programFetch {s : State} {p c : Nat} {op : BitVec 128} {pc : BitVec 32} {n : Nat}
    (hs : s.fab.seqLive (.tsq p c) = true) (hprog : (s.fab.chan (.tsq p c)).prog = some (pc, n + 1))
    (hroom : (s.fab.chan (.tsq p c)).queue.length < 64) :
    gives (.programFetch p c op) s
      (let st := decodeOp s.fab.variant .prog op
       let f1 := s.fab.updChan (.tsq p c) fun k => { k with prog := some (pc + 16, n) }
       if st = .ok then f1.queueOp p c op true
       else (f1.opPriv p c op).updChan (.tsq p c) fun k => (k.reject st op).settleProg) := by
  have h := gives_when (c := .programFetch p c op) (b := (·.seqLive (.tsq p c))) rfl hs
  simpa only [hprog, hroom, if_true] using h

/-- Settles O9: both ends of a fetch change the one channel. -/
theorem programFetchAdvances : Obligations.ProgramFetchAdvances := by
  intro s p c op pc n w hs hprog hroom
  have h := gives_programFetch (op := op) hs hprog hroom
  refine ⟨fun hd => ?queued, fun hd => ?rejected⟩
  case queued =>
    rw [if_pos hd] at h
    obtain ⟨id, ops, hchan⟩ := (s.fab.updChan (.tsq p c) fun k => { k with prog := some (pc + 16, n) }).queueOp_chan p c op true
    refine h.answers ⟨?_, id, ?_⟩ <;> rw [hchan, Fabric.updChan_tsq_chan]
  case rejected =>
    rw [if_neg hd] at h
    refine h.answers ?_
    rw [Fabric.updChan_tsq_chan, Fabric.opPriv_chan, Fabric.updChan_tsq_chan]
    exact ⟨Chan.settleProg_queue _, Chan.settleProg_drejN _, Chan.settleProg_drejOp _⟩

end Sys2Proof.Machine
end

section
/-! SUPPORT. A local copy: the lines of its tile, and one fc of it (08 R182, R199; log entry 154). -/

namespace Sys2Proof.Machine

/-- A string of bytes written in two parts. -/
theorem Mem.write_append (m : Mem) (a : Nat) (xs ys : Bytes) :
    m.write a (xs ++ ys) = (m.write a xs).write (a + xs.length) ys := by
  induction xs generalizing m a with
  | nil => rfl
  | cons x xs ih =>
    rw [List.cons_append, Mem.write, ih, Mem.write, List.length_cons]
    congr 1
    omega

theorem sliceBytes_within {bs : Bytes} {a n : Nat} (h : a + n ≤ bs.length) : sliceBytes bs a n = (bs.drop a).take n := by
  have hlen : ((bs.drop a).take n).length = n := by simp; omega
  simp [sliceBytes, hlen]

/-! ## The lines of a stretch -/

/-- Where line `i` of a stretch of `n` bytes at `a` begins; the stretch ends where the line after its last one would. -/
def lineStart (a n i : Nat) : Nat := min (a + n) (max a (128 * (a / 128 + i)))

/-- The lines that a stretch touches. -/
def linesOf (a n : Nat) : Nat := if n = 0 then 0 else lineCount a n

section
variable {a n i : Nat}

theorem lineStart_zero : lineStart a n 0 = a := by simp only [lineStart]; omega

theorem lineStart_last : lineStart a n (linesOf a n) = a + n := by
  simp only [lineStart, linesOf, lineCount, ceilDiv]
  split <;> omega

theorem lineStart_mono : a ≤ lineStart a n i ∧ lineStart a n i ≤ lineStart a n (i + 1) ∧ lineStart a n (i + 1) ≤ a + n := by
  simp only [lineStart]
  omega

/-- Every line has a byte, and ends before the next multiple of 128. -/
theorem lineStart_step (hi : i < linesOf a n) : lineStart a n i < lineStart a n (i + 1) ∧
    lineStart a n i % 128 + (lineStart a n (i + 1) - lineStart a n i) ≤ 128 := by
  simp only [linesOf, lineCount, ceilDiv] at hi
  simp only [lineStart]
  split at hi <;> omega

end

theorem lineCuts_eq (a n : Nat) : lineCuts a n =
    (List.range (linesOf a n)).map fun i => (lineStart a n i, lineStart a n (i + 1) - lineStart a n i) := by
  unfold lineCuts
  refine List.map_congr_left fun i hi => ?_
  have hlast : 128 * (a / 128 + i) < a + n := by
    have hi : i < linesOf a n := List.mem_range.1 hi
    simp only [linesOf, lineCount, ceilDiv] at hi
    split at hi <;> omega
  simp only [lineStart, Prod.mk.injEq]
  omega

/-- Line `i` of the bytes `bs` at `a`. -/
def copiedLine (a : Nat) (bs : Bytes) (i : Nat) : Run :=
  let n := bs.length
  { addr := 0, local_ := lineStart a n i, bytes := lineStart a n (i + 1) - lineStart a n i
    data := (bs.drop (lineStart a n i - a)).take (lineStart a n (i + 1) - lineStart a n i) }

/-- A tile of one row is copied line by line. -/
theorem copyRuns_row {d : BitVec 512} {t a : Nat} {bs : Bytes} (hrow : tileRows d t = [a]) (hlen : bs.length = rowBytes d t) :
    copyRuns d t bs = (List.range (linesOf a bs.length)).map (copiedLine a bs) := by
  have hslice (i : Nat) : sliceBytes bs (lineStart a bs.length i - a) (lineStart a bs.length (i + 1) - lineStart a bs.length i) =
      (bs.drop (lineStart a bs.length i - a)).take (lineStart a bs.length (i + 1) - lineStart a bs.length i) := by
    obtain ⟨hlow, hstep, hhigh⟩ := lineStart_mono (a := a) (n := bs.length) (i := i)
    exact sliceBytes_within (by omega)
  simp [copyRuns, hrow, ← hlen, lineCuts_eq, copiedLine, hslice, Function.comp_def]

/-- The first `j` lines, written in their order, leave the bytes up to the next line's start. -/
theorem foldl_copiedLine (m : Mem) (a : Nat) (bs : Bytes) (j : Nat) :
    ((List.range j).map (copiedLine a bs)).foldl (fun x r => x.write r.local_ r.data) m =
      m.write a (bs.take (lineStart a bs.length j - a)) := by
  induction j with
  | zero => simp [lineStart_zero, Mem.write]
  | succ j ih =>
    obtain ⟨hlow, hstep, hhigh⟩ := lineStart_mono (a := a) (n := bs.length) (i := j)
    have hlen : (bs.take (lineStart a bs.length j - a)).length = lineStart a bs.length j - a := by
      rw [List.length_take]; omega
    have hjoin : bs.take (lineStart a bs.length (j + 1) - a) =
        bs.take (lineStart a bs.length j - a) ++ (copiedLine a bs j).data := by
      rw [copiedLine, ← List.take_add]
      congr 1
      omega
    have hplace : a + (lineStart a bs.length j - a) = (copiedLine a bs j).local_ := Nat.add_sub_cancel' hlow
    rw [List.range_succ, List.map_append, List.foldl_append, ih, hjoin, Mem.write_append, hlen, hplace]
    rfl

/-- All the lines of a row leave its bytes in their places. -/
theorem copyRuns_foldl {d : BitVec 512} {t a : Nat} {bs : Bytes} (m : Mem) (hrow : tileRows d t = [a])
    (hlen : bs.length = rowBytes d t) :
    (copyRuns d t bs).foldl (fun x r => x.write r.local_ r.data) m = m.write a bs := by
  rw [copyRuns_row hrow hlen, foldl_copiedLine, lineStart_last, Nat.add_sub_cancel_left, List.take_length]

theorem copiedLine_fits {a i : Nat} {bs : Bytes} (hi : i < linesOf a bs.length) :
    0 < (copiedLine a bs i).bytes ∧ (copiedLine a bs i).data.length = (copiedLine a bs i).bytes ∧
    (copiedLine a bs i).local_ % 128 + (copiedLine a bs i).bytes ≤ 128 := by
  obtain ⟨hlow, hstep, hhigh⟩ := lineStart_mono (a := a) (n := bs.length) (i := i)
  obtain ⟨hpos, hline⟩ := lineStart_step hi
  refine ⟨Nat.sub_pos_of_lt hpos, ?_, hline⟩
  simp only [copiedLine, List.length_take, List.length_drop]
  omega

/-! ## One fc of a copy -/

/-- A copying op after its next line, with the lines `rs` left. -/
def QEntry.lineWritten (e : QEntry) (r : Run) (rs : List Run) : QEntry := { e with work := { e.work with
  runs := rs, committed := e.work.committed + r.bytes, outstanding := b2n !rs.isEmpty } }

section
variable {f : Fabric} {p c : Nat} {e : QEntry} {r : Run} {rs : List Run}

/-- The fabric after the line's bytes and its op's progress have been written. -/
def Fabric.lineWritten (f : Fabric) (p c : Nat) (e : QEntry) (r : Run) (rs : List Run) : Fabric :=
  (f.lmWrite p r.local_ r.data).updWork (.tsq p c) e.eid fun k => { k with
    runs := rs, committed := k.committed + r.bytes, outstanding := b2n !rs.isEmpty }

theorem Fabric.copyLine_cons (h : e.work.runs = r :: rs) :
    f.copyLine p c e = (f.lineWritten p c e r rs).finishIfDone (.tsq p c) e.eid := by
  rw [Fabric.copyLine, h]
  rfl

theorem Fabric.lineWritten_frame : Fabric.OnlyTsq p (f.lmWrite p r.local_ r.data) (f.lineWritten p c e r rs) := by
  unfold Fabric.lineWritten Fabric.updWork Fabric.updEntry
  exact Fabric.updChan_onlyTsq ..

theorem Fabric.lineWritten_chan (hq : (f.chan (.tsq p c)).queue = [e]) :
    (f.lineWritten p c e r rs).chan (.tsq p c) = { f.chan (.tsq p c) with queue := [e.lineWritten r rs] } := by
  unfold Fabric.lineWritten Fabric.updWork Fabric.updEntry
  rw [Fabric.updChan_tsq_chan, Fabric.lmWrite_chan, hq]
  simp [QEntry.lineWritten]

theorem Fabric.lineWritten_entry (hq : (f.chan (.tsq p c)).queue = [e]) :
    (f.lineWritten p c e r rs).entry (.tsq p c) e.eid = some (e.lineWritten r rs) := by
  rw [Fabric.entry, Fabric.lineWritten_chan hq]
  simp [QEntry.lineWritten]

/-- With lines left the op goes on. -/
theorem Fabric.copyLine_goesOn (hq : (f.chan (.tsq p c)).queue = [e]) (hruns : e.work.runs = r :: rs) (hrs : rs ≠ []) :
    f.copyLine p c e = f.lineWritten p c e r rs := by
  rw [Fabric.copyLine_cons hruns, Fabric.finishIfDone, Fabric.lineWritten_entry hq]
  simp [QEntry.lineWritten, hrs, b2n]

/-- With its last line the op completes. -/
theorem Fabric.copyLine_completes (hq : (f.chan (.tsq p c)).queue = [e]) (hab : (f.chan (.tsq p c)).aborts = [])
    (hcopy : e.copying = true) (hissued : e.issued = true) (hruns : e.work.runs = [r]) :
    Fabric.Completes p c e.op e.work.st e.work.info (f.lineWritten p c e r []) (f.copyLine p c e) := by
  have hlive : e.started = true ∧ e.aborted = false := by
    simp only [QEntry.copying, Bool.and_eq_true, Bool.not_eq_true'] at hcopy
    tauto
  have hfinish : f.copyLine p c e = (f.lineWritten p c e r []).finish (.tsq p c) e.eid e.work.st e.work.info := by
    rw [Fabric.copyLine_cons hruns, Fabric.finishIfDone, Fabric.lineWritten_entry hq]
    simp [QEntry.lineWritten, hlive, hissued, b2n]
  rw [hfinish]
  exact Fabric.finish_only (e := e.lineWritten r []) (by rw [Fabric.lineWritten_chan hq])
    (by rw [Fabric.lineWritten_chan hq, hab]) hlive.2 ..

end

/-- Settles O13: the lines join to one write of the row, and each fc writes one and ends the op at the last. -/
theorem localCopyWritesTheTile : Obligations.LocalCopyWritesTheTile := by
  refine ⟨fun d t a bs m hrow hlen => ?tile, fun f p c e r rs hq hab hcopy hissued hruns => ?line⟩
  case tile =>
    intro l m1
    have hm1 : m1 = m.write a bs := copyRuns_foldl m hrow hlen
    refine ⟨fun r hr => ?_, fun i hi => ?_, fun b hb => ?_⟩
    · rw [show l = _ from copyRuns_row hrow hlen] at hr
      obtain ⟨i, hi, rfl⟩ := List.mem_map.1 hr
      exact copiedLine_fits (List.mem_range.1 hi)
    · rw [hm1, Mem.read_write_in _ _ _ hi, List.getElem?_eq_getElem hi]
    · rw [hm1, Mem.read_write_ne _ _ _ hb]
  case line =>
    intro g
    have hframe (h : Fabric.OnlyTsq p (f.lineWritten p c e r rs) g) :
        (g.ni p).core.lm = (f.ni p).core.lm.write r.local_ r.data ∧ (∀ q, q ≠ p → g.ni q = f.ni q) ∧ g.stops = f.stops := by
      have hwrite := Fabric.lineWritten_frame.trans h
      exact ⟨(congrArg CoreSide.lm hwrite.core :).trans (f.lmWrite_lm ..),
        fun q hqp => (hwrite.others q hqp).trans (f.updNi_ni_ne _ hqp), hwrite.stops⟩
    cases rs with
    | nil =>
      have hdone := Fabric.copyLine_completes hq hab hcopy hissued hruns
      obtain ⟨hlm, hothers, hstops⟩ := hframe hdone.frame
      exact ⟨hlm, fun _ => hdone.queue, fun h => absurd rfl h, hothers, hstops⟩
    | cons r2 rs =>
      have hg : g = f.lineWritten p c e r (r2 :: rs) := Fabric.copyLine_goesOn hq hruns (by simp)
      obtain ⟨hlm, hothers, hstops⟩ := hframe (hg ▸ .refl ..)
      refine ⟨hlm, fun h => absurd h (by simp), fun _ => ⟨e.lineWritten r (r2 :: rs), ?_, rfl, rfl, rfl⟩, hothers, hstops⟩
      rw [hg, Fabric.lineWritten_chan hq]

end Sys2Proof.Machine
end

section
/-! SUPPORT. What an addition and a reset do to a completion counter (07 R170, R172; log entry 153). -/

namespace Sys2Proof.Machine

/-! ## Additions -/

/-- Whether a status other than `OK` of a channel is the record's first (07 R172). -/
def Counter.isFirst (k : Counter) (ch : Nat) : Bool :=
  k.status = .ok || (match k.giver with | some c => ch < c | none => false)

section
variable (k : Counter) (ch : Nat) (a : BitVec 48) {st : Status} (info : BitVec 48)

/-- An addition with `OK` leaves the record. -/
theorem Counter.added_ok : k.added ch a .ok info = { k with value := k.value + a } := rfl

/-- Any other is counted, and gives the status where it is the first. -/
theorem Counter.added_bad (hst : st ≠ .ok) : k.added ch a st info = { k with
    value := k.value + a, nbad := if k.nbad = 4095 then 4095 else k.nbad + 1
    status := if k.isFirst ch then st else k.status, info := if k.isFirst ch then info else k.info
    giver := if k.isFirst ch then some ch else k.giver } := by
  rw [Counter.added, if_neg hst]
  change (if k.isFirst ch = true then _ else _) = _
  cases k.isFirst ch <;> rfl

theorem Counter.added_value (st : Status) : (k.added ch a st info).value = k.value + a := by
  by_cases hst : st = .ok
  · rw [hst, Counter.added_ok]
  · rw [Counter.added_bad _ _ _ _ hst]

theorem Counter.added_nbad (st : Status) : (k.added ch a st info).nbad =
    if st = .ok ∨ k.nbad = 4095 then k.nbad else k.nbad + 1 := by
  by_cases hst : st = .ok
  · rw [hst, Counter.added_ok, if_pos (.inl rfl)]
  · rw [Counter.added_bad _ _ _ _ hst]
    simp only [hst, false_or]
    split
    next hn => exact hn.symm
    next => rfl

/-- An addition neither looks at nor changes what has landed in the fc. -/
theorem Counter.added_late (st : Status) (l : List (Nat × BitVec 48 × Status × BitVec 48)) :
    Counter.added { k with late := l } ch a st info = { k.added ch a st info with late := l } := by
  by_cases hst : st = .ok
  · rw [hst]; rfl
  · rw [Counter.added_bad _ _ _ _ hst, Counter.added_bad _ _ _ _ hst]; rfl

theorem Counter.added_at (st : Status) : (k.added ch a st info).at_ = k.at_ := by
  by_cases hst : st = .ok
  · rw [hst, Counter.added_ok]
  · rw [Counter.added_bad _ _ _ _ hst]

theorem Counter.added_was (st : Status) : (k.added ch a st info).was = k.was := by
  by_cases hst : st = .ok
  · rw [hst, Counter.added_ok]
  · rw [Counter.added_bad _ _ _ _ hst]

end

/-! ## Resets -/

/-- What has landed in the fc of a reset, added again after it. -/
def Counter.addAll (k : Counter) (l : List (Nat × BitVec 48 × Status × BitVec 48)) : Counter :=
  l.foldl (fun k x => k.added x.1 x.2.1 x.2.2.1 x.2.2.2) k

/-- A counter that has been reset, before what landed in the same fc is added. -/
def Counter.cleared (k : Counter) : Counter :=
  { value := 0, nbad := 0, status := .ok, info := 0, last := k.base, lseq := k.lseq + 1
    at_ := k.at_, late := k.late, was := some (k.was.getD { k.toCtrRec with value := k.base }) }

section
variable (k : Counter) (a : BitVec 48) (l : List (Nat × BitVec 48 × Status × BitVec 48))

theorem Counter.crst_eq : k.crst = k.cleared.addAll k.late := rfl

theorem Counter.addAll_append (l' : List (Nat × BitVec 48 × Status × BitVec 48)) :
    k.addAll (l ++ l') = (k.addAll l).addAll l' := List.foldl_append

theorem Counter.addAll_late (l' : List (Nat × BitVec 48 × Status × BitVec 48)) :
    Counter.addAll { k with late := l' } l = { k.addAll l with late := l' } := by
  induction l generalizing k with
  | nil => rfl
  | cons x l ih => exact (congrArg (Counter.addAll · l) (k.added_late ..)).trans (ih _)

theorem Counter.addAll_at : (k.addAll l).at_ = k.at_ := by
  induction l generalizing k with
  | nil => rfl
  | cons x l ih => exact (ih _).trans (k.added_at ..)

theorem Counter.addAll_was : (k.addAll l).was = k.was := by
  induction l generalizing k with
  | nil => rfl
  | cons x l ih => exact (ih _).trans (k.added_was ..)

/-- An addition of the present fc is not part of the value before the fc. -/
theorem Counter.base_addTo : (k.addTo a).base = k.base := by
  simp only [Counter.base, Counter.addTo, Counter.land, Counter.added_ok, List.foldl_append, List.foldl_cons, List.foldl_nil]
  exact add_sub_add_right_eq_sub ..

theorem Counter.cleared_addTo : (k.addTo a).cleared = { k.cleared with late := k.late ++ [(0, a, .ok, 0)] } := by
  simp only [Counter.cleared, k.base_addTo a]
  rfl

/-- An addition that landed in the fc of a reset counts after it. -/
theorem Counter.crst_addTo : (k.addTo a).crst =
    { k.crst with value := k.crst.value + a, late := k.late ++ [(0, a, .ok, 0)] } := by
  have hlate : (k.addTo a).late = k.late ++ [(0, a, .ok, 0)] := rfl
  rw [Counter.crst_eq, Counter.cleared_addTo, hlate, Counter.addAll_late, Counter.addAll_append, ← Counter.crst_eq]
  rfl

/-- What is sampled in the fc of a reset was fixed by the reset. -/
theorem Counter.crst_seen : k.crst.seen k.at_ = k.was.getD { k.toCtrRec with value := k.base } := by
  rw [Counter.crst_eq, Counter.seen, Counter.addAll_at, Counter.addAll_was]
  exact if_pos rfl

theorem Counter.crst_addTo_seen : (k.addTo a).crst.seen k.at_ = k.crst.seen k.at_ := by
  refine ((k.addTo a).crst_seen).trans ?_
  rw [Counter.crst_seen, Counter.base_addTo]
  rfl

/-- A reset of a counter on which nothing has landed in the fc. -/
theorem Counter.crst_alone (h : k.late = []) :
    k.crst.toCtrRec = { value := 0, nbad := 0, status := .ok, info := 0, last := k.value, lseq := k.lseq + 1 } := by
  have hbase : k.base = k.value := by rw [Counter.base, h]; exact BitVec.sub_zero _
  rw [Counter.crst_eq, h, ← hbase]
  rfl

end

/-- The first change in another fc forgets the giver and leaves the record. -/
theorem Counter.now_other {k : Counter} {t : Nat} (h : t ≠ k.at_) :
    (k.now t).giver = none ∧ (k.now t).toCtrRec = k.toCtrRec := by
  rw [Counter.now, if_neg (Ne.symm h)]
  exact ⟨rfl, rfl⟩

/-- Settles O12: the cases of an addition, and the reset with what landed beside it. -/
theorem completionCounterRules : Obligations.CompletionCounterRules := by
  intro k ch cinc st info g
  have hok (hst : st = .ok) : g.status = k.status ∧ g.info = k.info := by
    subst hst
    exact ⟨rfl, rfl⟩
  have hbad (hst : st ≠ .ok) : g.status = (if k.isFirst ch then st else k.status) ∧
      g.info = (if k.isFirst ch then info else k.info) ∧ g.giver = (if k.isFirst ch then some ch else k.giver) := by
    have h := k.added_bad ch (BitVec.ofNat 48 cinc) info hst
    exact ⟨(congrArg (·.status) h :), (congrArg (·.info) h :), (congrArg (·.giver) h :)⟩
  refine ⟨k.added_value .., k.added_nbad .., fun hk hg => ?later, fun c hk hg hst => ?same, fun hk hst => ?first,
    hok, fun t ht => Counter.now_other ht, k.crst_alone, fun a => ?reset⟩
  case later =>
    have hfirst : k.isFirst ch = false := by simp [Counter.isFirst, hk, hg]
    by_cases hst : st = .ok
    · exact hok hst
    · obtain ⟨hs, hi, -⟩ := hbad hst
      exact ⟨by simp [hs, hfirst], by simp [hi, hfirst]⟩
  case same =>
    have hfirst : k.isFirst ch = decide (ch < c) := by simp [Counter.isFirst, hk, hg]
    obtain ⟨hs, hi, -⟩ := hbad hst
    rw [hs, hi, hfirst]
    by_cases h : ch < c <;> simp [h]
  case first =>
    have hfirst : k.isFirst ch = true := by simp [Counter.isFirst, hk]
    simpa [hfirst] using hbad hst
  case reset =>
    have h := k.crst_addTo a
    exact ⟨(congrArg (·.value) h :), (congrArg (·.last) h :), k.crst_addTo_seen a⟩

end Sys2Proof.Machine
end

section
/-! SUPPORT. The starts of the ops of a TSQ channel and of the FMU's stream (07 R158, R162). -/

namespace Sys2Proof.Machine

/-- A command that starts an LDD of a kind, where it is at the head and nothing holds it back. -/
theorem gives_startLdd {i : Instr} {s : State} {p c kind : Nat} {e : QEntry} {k : Fabric → QEntry → Fabric}
    (hi : exec i s = s.run fun f => f.startLdd (.tsq p c) kind k) (hs : startable s.fab p c e) (ho : opcOf e.op = ocLdd)
    (hk : fld e.op 89 88 = kind) : gives i s (k (s.fab.begin (.tsq p c) e) e) := by
  have hhead : s.fab.head (.tsq p c) = some e := hs.2.2
  rw [gives, hi, State.run_eq, Fabric.startLdd, hhead]
  simp only [hk, beq_self_eq_true, if_true]
  rw [Fabric.startOp_startable hs ho]

/-- With no WAIT waiting, WAIT is the start of the op at the head, which compares before its own reset (07 R172). -/
theorem exec_wait_start {s : State} {w : Seqr} (hs : s.fab.seqLive w = true) (hr : s.fab.running w ocWait = none) :
    exec (.wait w) s = s.run fun f => f.startOp w ocWait fun g e =>
      if waitHolds (s.fab.compared w (fld e.op 95 88)) e.op then g.finish w e.eid .ok 0
      else g.updChan w fun c => { c with reason := 4 } := by
  have h := gives_when (c := .wait w) (b := (·.seqLive w)) rfl hs
  rw [gives, hr] at h
  exact h

/-- Settles O3: each command starts the op of its opcode. -/
theorem channelOpsStart : Obligations.ChannelOpsStart := by
  intro s p c e hs w g
  refine ⟨fun ho => ?nop, fun ho => ?fence, fun ho hk => ?tensor, fun ho hk => ?program, fun ho d => ?move, fun ho d => ?movex,
    fun ho d => ?mcast, fun ho d a => ?reduce, fun ho => ?stamp, fun ho hr => ?wait⟩
  case nop => exact (gives_startOp (c := .nop w) rfl hs ho :)
  case fence => exact (gives_startOp (c := .fence w) rfl hs ho :)
  case tensor => exact (gives_startLdd (i := .lddTensor p c) rfl hs ho hk :)
  case program => exact (gives_startLdd (i := .lddProgram p c) rfl hs ho hk :)
  case move => exact (gives_startOp (c := .move p c d) rfl hs ho :)
  case movex => exact (gives_startOp (c := .movex p c d) rfl hs ho :)
  case mcast => exact (gives_startOp (c := .mcast p c d) rfl hs ho :)
  case reduce => exact (gives_startOp (c := .reduce p c d a) rfl hs ho :)
  case stamp => exact (gives_startOp (c := .stamp p c) rfl hs ho :)
  case wait => exact (gives_startOp (exec_wait_start hs.1 hr) hs ho :)

/-- A command that starts the op at the head of the FMU's stream: what it does where nothing holds the op back. -/
theorem gives_startStream {c : Instr} {s : State} {oc : Nat} {e : QEntry} {k : Fabric → QEntry → Fabric}
    (hc : exec c s = s.run fun f => f.startOp .fmu oc k) (hs : fmuStartable s.fab e) (ho : opcOf e.op = oc) :
    gives c s (k (s.fab.fmuSkip.begin .fmu e) e) := by
  obtain ⟨hlive, hcan, hhead⟩ := hs
  rw [gives, hc, State.run_eq, Fabric.startOp, Fabric.when_of _ hlive]
  simp [hhead, ho, hcan]

theorem sigAddend_sigAux (a : BitVec 48) (n : Nat) : sigAddend (sigAux a n) = a := by
  rw [sigAddend, sigAux, BitVec.extractLsb'_append_eq_of_le (by decide), BitVec.extractLsb'_append_eq_of_le (by decide)]
  exact BitVec.extractLsb'_eq_self

/-- Settles O14: the stream's ops start as a channel's do; a SIGNAL that is not local queues its packet at the FMU's port. -/
theorem streamOpsStart : Obligations.StreamOpsStart := by
  intro s e hs g
  have hsignal (ho : opcOf e.op = ocSignal) := gives_startStream (c := .signal .fmu) rfl hs ho
  refine ⟨fun ho => ?nop, fun ho => ?fence, fun ho hk => ?own, fun ho hk => ?packet, fun ho hr => ?wait⟩
  case nop => exact (gives_startStream (c := .nop .fmu) rfl hs ho :)
  case fence => exact (gives_startStream (c := .fence .fmu) rfl hs ho :)
  case wait => exact (gives_startStream (exec_wait_start hs.1 hr) hs ho :)
  case own =>
    have h := hsignal ho
    rwa [if_pos (by rw [hk]; rfl)] at h
  case packet =>
    have h := hsignal ho
    rw [if_neg (by simpa using hk)] at h
    exact h.answers ⟨_, Fabric.enqueue_injQ_self .., rfl, rfl, sigAddend_sigAux ..⟩

end Sys2Proof.Machine
end

section
/-! SUPPORT. What a table lists, and the first element that holds. -/

namespace Sys2Proof.Machine

section
variable {α : Type} {m : NMap α} {k : Nat} {x : α}

theorem NMap.mem_of_find? (h : NMap.find? m k = some x) : (k, x) ∈ m := by
  induction m with
  | nil => simp at h
  | cons e m ih =>
    obtain ⟨a, y⟩ := e
    simp only [NMap.find?] at h
    split at h
    next ha =>
      obtain rfl := Option.some.inj h
      simp [ha]
    next => exact List.mem_cons_of_mem _ (ih h)

theorem NMap.mem_put {e : Nat × α} (h : e ∈ NMap.put m k x) : e = (k, x) ∨ e ∈ m := by
  induction m with
  | nil => simpa [NMap.put] using h
  | cons d m ih =>
    obtain ⟨a, y⟩ := d
    simp only [NMap.put] at h
    split at h
    · exact (List.mem_cons.1 h).imp_right (List.mem_cons_of_mem _)
    · split at h
      · exact List.mem_cons.1 h
      · rcases List.mem_cons.1 h with rfl | h
        · exact .inr List.mem_cons_self
        · exact (ih h).imp_right (List.mem_cons_of_mem _)

theorem takeFirst_none {p : α → Bool} {l : List α} (h : ∀ y ∈ l, p y = false) : takeFirst p l = none := by
  induction l with
  | nil => rfl
  | cons y l ih => simp [takeFirst, h y List.mem_cons_self, ih fun z hz => h z (List.mem_cons_of_mem _ hz)]

end

end Sys2Proof.Machine
end

section
/-! SUPPORT. A Target NI: what its stack sends, its line requests and its deferred answers (08 R201-R206; 13 R299,
R314; 16 R368). -/

namespace Sys2Proof.Machine

/-! ## What the stack sends (08 R202, R206; log entries 96, 97) -/

section
variable {s : State} {p : Nat}

theorem gives_stackSends {c : Instr} {x : StackIn}
    (hc : exec c s = s.run fun f => f.when (f.live && f.kind p == 2 && f.powered p) fun f => f.stackSends p x)
    (hl : s.fab.live = true) (hk : s.fab.kind p = 2) (hp : s.fab.powered p = true) : gives c s (s.fab.stackSends p x) :=
  gives_when hc (by simp [hl, hk, hp])

theorem gives_stackActs {c : Instr} {x : StackIn}
    (hc : exec c s = s.run fun f => f.when (f.live && f.kind p == 2 && f.powered p) fun f => f.stackSends p x)
    (ha : niActs s.fab p 2) : gives c s (s.fab.stackActs p x) := by
  obtain ⟨hm, hk, hp⟩ := ha
  have hl : s.fab.live = true := (Bool.and_eq_true_iff.1 hm).1
  have h := gives_stackSends hc hl hk hp
  rwa [Fabric.stackSends, if_pos hm] at h

end

/-- Settles O43: what the stack sends joins the inbox, by one write of the NI. -/
theorem frozenTargetTakesResponses : Obligations.FrozenTargetTakesResponses := by
  intro s p hl hstop hk hp n takes
  have hm : s.fab.moving = false := by simp [Fabric.moving, hstop]
  have htakes (c : Instr) (x : StackIn)
      (hc : exec c s = s.run fun f => f.when (f.live && f.kind p == 2 && f.powered p) fun f => f.stackSends p x) :
      takes c x := by
    have h := gives_stackSends hc hl hk hp
    rw [Fabric.stackSends, if_neg (by simp [hm])] at h
    exact h.answers ⟨s.fab.updNi_ni_self .., fun _ hq => s.fab.updNi_ni_ne _ hq, rfl, rfl, rfl⟩
  exact ⟨fun _ _ _ => htakes _ _ rfl, fun _ _ => htakes _ _ rfl⟩

/-! ## Line responses (08 R202, R203; log entry 96) -/

/-- Where every place has made all its line requests, no more are made. -/
theorem Fabric.makeLines_made {f : Fabric} {p : Nat} (h : ∀ x ∈ (f.ni p).tgt.places, x.2.lines ≤ x.2.made) (n : Nat) :
    f.makeLines p n = f := by
  have hnone : List.find? (fun x : Nat × Place => x.2.made < x.2.lines) (f.ni p).tgt.places = none :=
    List.find?_eq_none.2 fun x hx => by simpa using h x hx
  cases n with
  | zero => rfl
  | succ n =>
    rw [Fabric.makeLines]
    dsimp only
    rw [hnone, ite_self]

/-- A response ends the stall episode of its NI. -/
def Fabric.endEpisode (f : Fabric) (p : Nat) : Fabric :=
  f.updNi p fun n => { n with tgt := { n.tgt with stallEpisode := false } }

/-- The fabric once the response to the line request `l` of a place is taken, with the line requests `rest` left. -/
def Fabric.tookLine (f : Fabric) (p : Nat) (l : LineReq) (rest : List LineReq) (pl : Place) : Fabric :=
  (f.endEpisode p).updNi p fun n => { n with tgt := { n.tgt with lines := rest, places := n.tgt.places.put l.place pl } }

/-- A deferred answer is being read again or offered. -/
def Fabric.rereads (f : Fabric) (p id : Nat) : Fabric := f.updNi p fun n => { n with tgt := { n.tgt with
  dat := n.tgt.dat.map fun y => if y.id == id then { y with rereading := true } else y } }

section
variable {f : Fabric} {p : Nat}

theorem Fabric.lineResponse_unknown {id : BitVec 8} (st : BitVec 2) (d : Bytes)
    (h : ∀ l ∈ (f.ni p).tgt.lines, ¬ (l.taken = true ∧ l.id = id.toNat)) :
    f.lineResponse p id st d = (f.endEpisode p).raiseNi p .mcProtocol id.toNat := by
  have hnone : takeFirst (fun l => l.taken && l.id == id.toNat) ((f.endEpisode p).ni p).tgt.lines = none :=
    takeFirst_none fun l hl => by simpa [Fabric.endEpisode] using h l (by simpa [Fabric.endEpisode] using hl)
  rw [Fabric.endEpisode] at hnone
  simp only [Fabric.lineResponse, hnone, Fabric.endEpisode]

theorem Fabric.lineResponse_taken {id : BitVec 8} {st : BitVec 2} {l : LineReq}
    {rest : List LineReq} {pl : Place} (d : Bytes) (hst : st ≠ 3)
    (hl : takeFirst (fun x => x.taken && x.id == id.toNat) (f.ni p).tgt.lines = some (l, rest))
    (hpl : (f.ni p).tgt.places.find? l.place = some pl) :
    f.lineResponse p id st d = (if pl.lines ≤ pl.answered + 1 then
      (f.tookLine p l rest (pl.took l st d)).placeDone p l.place (pl.took l st d)
      else f.tookLine p l rest (pl.took l st d)).makeLines p 1 := by
  have hst' : (st == 3) = false := by simpa using hst
  simp only [Fabric.lineResponse, Fabric.updNi_ni_self, hl, hpl, hst', Fabric.tookLine, Fabric.endEpisode]
  rfl

end

/-! ## Each command of a Target NI -/

section
variable {s : State} {p : Nat} (ha : niActs s.fab p 2)
include ha

theorem gives_target {c : Instr} {g : Fabric → Fabric}
    (hc : exec c s = s.run fun f => f.when (f.moving && f.kind p == 2 && f.powered p) g) : gives c s (g s.fab) := by
  obtain ⟨hm, hk, hp⟩ := ha
  exact gives_when hc (by simp [hm, hk, hp])

/-- The oldest line request presented is taken (08 R201). -/
theorem lineRequestTaken_oldest {i : Nat} {l : LineReq}
    (hi : (s.fab.ni p).tgt.lines.findIdx? (fun x => !x.taken) = some i) (hl : (s.fab.ni p).tgt.lines[i]? = some l) :
    answers (.lineRequestTaken p) s fun h =>
      (h.ni p).tgt.lines = (s.fab.ni p).tgt.lines.set i { l with taken := true } ∧ ∀ q, q ≠ p → h.ni q = s.fab.ni q := by
  refine (gives_target ha (c := .lineRequestTaken p) rfl).answers ⟨?_, fun q hq => Fabric.updNi_ni_ne _ _ hq⟩
  rw [Fabric.updNi_ni_self, hi]
  simp [List.modify_eq_set_getElem?, hl]

theorem gives_tgtLineResponse (id : BitVec 8) (st : BitVec 2) (d : Bytes) :
    gives (.tgtLineResponse p id st d) s (s.fab.lineResponse p id st d) :=
  gives_stackActs (x := .line id st d) rfl ha

theorem gives_scrubReport (k : BitVec 2) (line : BitVec 34) :
    gives (.scrubReport p k line) s (s.fab.scrubReported p k line) :=
  gives_stackActs (x := .scrub k line) rfl ha

/-- A response that is not the last of its place is taken into it. -/
theorem tgtLineResponse_goesOn {id : BitVec 8} {st : BitVec 2} {l : LineReq} {rest : List LineReq} {pl : Place} (d : Bytes)
    (hst : st ≠ 3) (hl : takeFirst (fun x => x.taken && x.id == id.toNat) (s.fab.ni p).tgt.lines = some (l, rest))
    (hpl : (s.fab.ni p).tgt.places.find? l.place = some pl) (hmore : pl.answered + 1 < pl.lines)
    (hmade : ∀ x ∈ (s.fab.ni p).tgt.places, x.2.lines ≤ x.2.made) :
    gives (.tgtLineResponse p id st d) s (s.fab.tookLine p l rest (pl.took l st d)) := by
  have h := gives_tgtLineResponse ha id st d
  rw [Fabric.lineResponse_taken d hst hl hpl, if_neg (by omega), Fabric.makeLines_made] at h
  · exact h
  · intro x hx
    rw [Fabric.tookLine, Fabric.updNi_ni_self, Fabric.endEpisode, Fabric.updNi_ni_self] at hx
    rcases NMap.mem_put hx with rfl | hx
    · exact hmade (l.place, pl) (NMap.mem_of_find? hpl)
    · exact hmade x hx

/-- The oldest deferred answer that is not being read again: a read of the bytes asked for is read again, any other
answer is offered (13 R299). -/
theorem gives_datAnswer {d : DatEntry} {a : Packet}
    (hd : (s.fab.ni p).tgt.dat.find? (fun x => x.answer.isSome && !x.rereading) = some d) (hans : d.answer = some a)
    (hidle : ∀ x ∈ (s.fab.ni p).tgt.places, ∀ i, x.2.kind ≠ .reread i) :
    (d.req.kind = 0 ∧ a.hdr.bcnt = d.req.bcnt → gives (.datAnswer p) s
      ((s.fab.rereads p d.id).openPlace p { hdr := d.req } (.reread d.id) false d.req.addr.toNat d.req.bcnt.toNat)) ∧
    (¬ (d.req.kind = 0 ∧ a.hdr.bcnt = d.req.bcnt) → gives (.datAnswer p) s
      ((s.fab.rereads p d.id).enqueue p 101 { pkt := a, need := d.id + 1 })) := by
  have h := gives_target ha (c := .datAnswer p) rfl
  dsimp only at h
  rw [hd] at h
  dsimp only at h
  rw [hans] at h
  split at h
  next hbusy =>
    obtain ⟨x, hx, hkind⟩ := List.any_eq_true.1 hbusy
    split at hkind
    · exact absurd ‹_› (hidle x hx _)
    · cases hkind
  next =>
    refine ⟨fun hc => ?_, fun hc => ?_⟩
    · rwa [if_pos (by simpa using hc)] at h
    · rwa [if_neg (by simpa using hc)] at h

/-- The oldest line request that has waited the limit is reported, and the episode begins (13 R314). -/
theorem tgtStall_overdue {l : LineReq} (hnew : (s.fab.ni p).tgt.stallEpisode = false)
    (hl : (s.fab.ni p).tgt.lines.find? (fun x => s.fab.due (x.since + s.fab.localTmo p * s.fab.unit)) = some l) :
    gives (.tgtStall p) s (((s.fab.reach (l.since + s.fab.localTmo p * s.fab.unit)).updNi p fun n =>
      { n with tgt := { n.tgt with stallEpisode := true } }).raiseNi p .tgtStall (p + l.id * 2 ^ 10)) := by
  obtain ⟨hm, hk, hp⟩ := ha
  have h := gives_when (c := .tgtStall p) (s := s)
    (b := fun f => f.moving && f.kind p == 2 && f.powered p && !(f.ni p).tgt.stallEpisode) rfl (by simp [hm, hk, hp, hnew])
  dsimp only at h
  rw [hl] at h
  exact h

end

/-- Settles O42, command by command (log entry 96). -/
theorem targetService : Obligations.TargetService := by
  intro s p ha n
  refine ⟨fun i l => lineRequestTaken_oldest ha, ?unknown, ?goesOn, ?last, fun line => gives_scrubReport ha 0 line, ?scrub,
    ?dat, fun l => tgtStall_overdue ha⟩
  case unknown =>
    intro id st d hnone
    exact Fabric.lineResponse_unknown st d hnone ▸ gives_tgtLineResponse ha id st d
  case goesOn =>
    intro id st d l rest pl hst hl hpl hmore hmade
    refine (tgtLineResponse_goesOn ha d hst hl hpl hmore hmade).answers ?_
    simp [Fabric.tookLine, Fabric.endEpisode, Place.took]
  case last =>
    intro id st d l rest pl hst hl hpl hlast f1 f2
    have h := gives_tgtLineResponse ha id st d
    rwa [Fabric.lineResponse_taken d hst hl hpl, if_pos hlast] at h
  case scrub =>
    intro k line hk
    have h := gives_scrubReport ha k line
    rwa [Fabric.scrubReported, if_neg (by simpa using hk)] at h
  case dat =>
    intro d a hd hans hidle
    obtain ⟨hreread, hoffer⟩ := gives_datAnswer ha hd hans hidle
    exact ⟨fun hno => (hoffer (not_and_or.2 hno)).answers
      ⟨_, (Fabric.enqueue_injQ_self ..).trans (congrArg (· ++ [_]) (Fabric.updNi_injQ _ _ rfl _)), rfl, rfl⟩,
      fun hk hb => hreread ⟨hk, hb⟩⟩

end Sys2Proof.Machine
end

section
/-! SUPPORT. Pre-translation: a window at the head of its NI's queue, and the walk request of a page that is not in the
Translation Cache (08 R189, R191). -/

namespace Sys2Proof.Machine

/-! ## Repeated writes -/

section
variable {α : Type}

theorem NMap.put_put (m : NMap α) (k : Nat) (x y : α) : NMap.put (NMap.put m k x) k y = NMap.put m k y := by
  induction m with
  | nil => simp [NMap.put]
  | cons e m ih =>
    obtain ⟨a, z⟩ := e
    simp only [NMap.put]
    split
    · simp [NMap.put]
    · split
      next hlt => simp [NMap.put]
      next hne hlt => simp [NMap.put, hne, hlt, ih]

/-- A table gives an entry that it lists, or the default. -/
theorem NMap.get_listed (m : NMap α) (k : Nat) (d : α) : m.get k d = d ∨ (k, m.get k d) ∈ m := by
  unfold NMap.get
  split
  next h => exact .inr (NMap.mem_of_find? h)
  next => exact .inl rfl

theorem Fabric.updNi_updNi (f : Fabric) (p : Nat) (u v : Ni → Ni) :
    (f.updNi p u).updNi p v = f.updNi p fun n => v (u n) := by
  rw [Fabric.updNi, Fabric.updNi_ni_self]
  simp only [Fabric.updNi, Fabric.setNi, NMap.put_put]

/-- What a table's entries give, where all but the one written give nothing. -/
theorem NMap.flatMap_put {β : Type} {m : NMap α} {k : Nat} {x : α} {u : Nat × α → List β} (h : ∀ e ∈ m, u e = []) :
    (NMap.put m k x).flatMap u = u (k, x) := by
  induction m with
  | nil => simp [NMap.put]
  | cons e m ih =>
    have hm : m.flatMap u = [] := List.flatMap_eq_nil_iff.2 fun e he => h e (List.mem_cons_of_mem _ he)
    have he := h e List.mem_cons_self
    obtain ⟨a, z⟩ := e
    simp only [NMap.put]
    split
    · simp [hm]
    · split
      · simp [hm, he]
      · simp [he, ih fun e he => h e (List.mem_cons_of_mem _ he)]

/-- The same of a list and its places, with one element changed. -/
theorem flatMap_zip_modify {β : Type} {l : List α} {i : Nat} {x : α} (g : α → α) {u : α × Nat → List β}
    (hx : l[i]? = some x) (h : ∀ y ∈ l, ∀ j, u (y, j) = []) :
    ((l.modify i g).zip (List.range (l.modify i g).length)).flatMap u = u (g x, i) := by
  have hpos : ∀ n, ((l.modify i g).zipIdx n).flatMap u = u (g x, n + i) := by
    induction l generalizing i with
    | nil => simp at hx
    | cons y l ih =>
      intro n
      have htail : ∀ z ∈ l, ∀ j, u (z, j) = [] := fun z hz => h z (List.mem_cons_of_mem _ hz)
      cases i with
      | zero =>
        obtain rfl : y = x := by simpa using hx
        have hl : (l.zipIdx (n + 1)).flatMap u = [] :=
          List.flatMap_eq_nil_iff.2 fun e he => htail e.1 (List.fst_mem_of_mem_zipIdx he) e.2
        simp [hl]
      | succ i =>
        have hrest := ih (i := i) (by simpa using hx) htail (n + 1)
        simpa [h y List.mem_cons_self, Nat.add_assoc, Nat.add_comm 1 i] using hrest
  have h0 := hpos 0
  rwa [List.zipIdx_eq_zip_range', ← List.range_eq_range', Nat.zero_add] at h0

end

/-! ## Walk requests (08 R191) -/

/-- The pages that windows wait for, with their channel, op and window, in order. -/
def Ni.walksDue (n : Ni) : List (Nat × QEntry × Nat × BitVec 36) :=
  n.tsq.chans.flatMap fun c => c.2.queue.flatMap fun e =>
    if e.aborted then [] else
    (e.work.wins.zip (List.range e.work.wins.length)).flatMap fun w => w.1.waiting.map fun pg => (c.1, e, w.2, pg)

/-- A page's walk request is sent, unless 16 are out or it has been sent. -/
def Fabric.pumpWalk (p : Nat) (f : Fabric) (x : Nat × QEntry × Nat × BitVec 36) : Fabric :=
  if (f.ni p).walksOut < 16 && !(f.ni p).walkSent x.1 x.2.1.eid x.2.2.1 x.2.2.2 then
    f.walkPacket p x.1 x.2.1.eid x.2.2.1 x.2.1.work.dom (BitVec.ofNat 6 (opcOf x.2.1.op)) x.2.2.2
  else f

theorem Fabric.pumpWalks_eq (f : Fabric) (p : Nat) : f.pumpWalks p = (f.ni p).walksDue.foldl (Fabric.pumpWalk p) f := rfl

section
variable (f : Fabric) (p c eid win : Nat) (dom op : BitVec 6) (page : BitVec 36)

theorem Fabric.walkPacket_injQ : ∃ o, (f.walkPacket p c eid win dom op page).injQ p 103 = f.injQ p 103 ++ [o] ∧
    o.purpose = some (.walk c eid win dom page) ∧ o.pkt.hdr.kind = 0 ∧ o.pkt.hdr.bcnt = 8 ∧
    o.pkt.hdr.dest = f.destOf p (walkPort p) :=
  ⟨_, (Fabric.enqueue_injQ_self ..).trans (congrArg (· ++ [_]) (Fabric.updNi_injQ _ _ rfl _)), rfl, rfl, rfl, rfl⟩

theorem Fabric.walkPacket_ini : ∃ t, ((f.walkPacket p c eid win dom op page).ni p).ini = { (f.ni p).ini with nextTag := t } :=
  ⟨(f.takeTag p).1 + 1, by simp [Fabric.walkPacket, Fabric.enqueue, Fabric.setInjQ, Fabric.takeTag]⟩

theorem Fabric.walkPacket_tsq : ((f.walkPacket p c eid win dom op page).ni p).tsq = (f.ni p).tsq := by
  simp [Fabric.walkPacket, Fabric.enqueue, Fabric.setInjQ, Fabric.takeTag]

end

/-! ## The window at the head (08 R189, R191) -/

/-- A window that still waits for an answer settles nothing. -/
theorem Fabric.settleWindow_waiting {f : Fabric} {p c eid win : Nat} {e : QEntry} {x : XWin}
    (he : f.entry (.tsq p c) eid = some e) (hx : e.work.wins[win]? = some x) (hw : x.waiting ≠ []) :
    f.settleWindow p c eid win = f := by
  simp [Fabric.settleWindow, Fabric.settleWindowN, he, hx, hw]

/-- The op with its window changed. -/
def QEntry.window (e : QEntry) (win : Nat) (g : XWin → XWin) : QEntry :=
  { e with work := { e.work with wins := e.work.wins.modify win g } }

/-- The window of a page that is not in the cache, once it has been admitted. -/
def XWin.awaits (x : XWin) (page : BitVec 36) : XWin :=
  { x with admitted := true, looked := true, waiting := [page], bad := [] }

/-- The NI with one op on a channel. -/
def Ni.holds (n : Ni) (c : Nat) (e : QEntry) : Ni :=
  { n with tsq := { n.tsq with chans := n.tsq.chans.put c { n.tsq.chans.get c {} with queue := [e] } } }

/-- The NI once the window has left the head of its queue for a page that is not in the cache. -/
def Ni.missed (n : Ni) (rest : List (Nat × Nat × Nat)) : Ni :=
  { n with ini := { n.ini with walkQ := rest, misses := n.ini.misses + 1 } }

/-- The fabric in which the page that the op's window needs has been looked up and not found. -/
def Fabric.pageMissed (f : Fabric) (p c win : Nat) (rest : List (Nat × Nat × Nat)) (e : QEntry) (page : BitVec 36) : Fabric :=
  f.updNi p fun n => (n.missed rest).holds c (e.window win (·.awaits page))

section
variable (f : Fabric) (p c win : Nat) (rest : List (Nat × Nat × Nat)) (e : QEntry) (page : BitVec 36)

theorem Fabric.pageMissed_ni :
    (f.pageMissed p c win rest e page).ni p = ((f.ni p).missed rest).holds c (e.window win (·.awaits page)) :=
  Fabric.updNi_ni_self ..

theorem Fabric.pageMissed_injQ (q : Nat) : (f.pageMissed p c win rest e page).injQ p q = f.injQ p q :=
  Fabric.updNi_injQ _ _ rfl _

theorem Fabric.pageMissed_destOf (q : Nat) : (f.pageMissed p c win rest e page).destOf p q = f.destOf p q := by
  rw [Fabric.destOf, Fabric.node, Fabric.niReg, Fabric.pageMissed_ni]
  rfl

end

theorem Fabric.updWin_only {f : Fabric} {p c eid win : Nat} {e : QEntry} {g : XWin → XWin}
    (hq : ((f.ni p).tsq.chans.get c {}).queue = [e]) (heid : e.eid = eid) :
    f.updWin p c eid win g = f.updNi p (·.holds c (e.window win g)) := by
  have hmap : (((f.ni p).tsq.chans.get c {}).queue.map fun x =>
      if x.eid == eid then { x with work := { x.work with wins := x.work.wins.modify win g } } else x) = [e.window win g] := by
    rw [hq]
    simp [heid, QEntry.window]
  exact congrArg (fun q => f.updNi p fun n =>
    { n with tsq := { n.tsq with chans := n.tsq.chans.put c ({ n.tsq.chans.get c {} with queue := q }) } }) hmap

/-- The fabric in which the window has been admitted and none of its pages looked up. -/
def Fabric.admitWindow (f : Fabric) (p c eid win : Nat) (rest : List (Nat × Nat × Nat)) : Fabric :=
  (f.updNi p fun n => { n with ini := { n.ini with walkQ := rest } }).updWin p c eid win fun x =>
    { x with admitted := true, looked := true, waiting := [], bad := [] }

section
variable {s : State} {p c eid win : Nat} {rest : List (Nat × Nat × Nat)} {e : QEntry}

/-- What the command does with the window of its channel that is first in line. -/
theorem gives_pretranslateWindow (hs : s.fab.seqLive (.tsq p c) = true)
    (hq : (s.fab.ni p).ini.walkQ = (c, eid, win) :: rest) (he : s.fab.entry (.tsq p c) eid = some e) :
    let pages := ((e.work.wins[win]?).map (·.pages)).getD []
    ((s.fab.ni p).admits e.work.dom pages = false →
      gives (.pretranslateWindow p c) s (s.fab.updChan (.tsq p c) fun k => { k with reason := 1 })) ∧
    ((s.fab.ni p).admits e.work.dom pages = true → gives (.pretranslateWindow p c) s
      (((pages.foldl (fun g pg => g.lookPage p c eid win e.work.dom pg) (s.fab.admitWindow p c eid win rest)).pumpWalks
        p).settleWindow p c eid win)) := by
  intro pages
  have h := gives_when (c := .pretranslateWindow p c) (s := s) (b := fun f => f.seqLive (.tsq p c)) rfl hs
  simp only [hq, he, bne_self_eq_false, Bool.false_eq_true, if_false] at h
  refine ⟨fun hno => ?_, fun hyes => ?_⟩
  · rwa [if_pos (by rw [hno]; rfl)] at h
  · rwa [if_neg (by rw [hyes]; decide)] at h

/-- The one page of an admitted window, looked up and not found. -/
theorem Fabric.lookPage_missed {f : Fabric} {page : BitVec 36} (hq : (f.chan (.tsq p c)).queue = [e]) (heid : e.eid = eid)
    (hmiss : (f.ni p).tcFind e.work.dom page = none) :
    (f.admitWindow p c eid win rest).lookPage p c eid win e.work.dom page =
      f.pageMissed p c win rest e page := by
  have hadmit : f.admitWindow p c eid win rest = f.updNi p fun n =>
      { n with ini := { n.ini with walkQ := rest } }.holds c
        (e.window win fun x => { x with admitted := true, looked := true, waiting := [], bad := [] }) := by
    rw [Fabric.admitWindow, Fabric.updWin_only (e := e) (by rw [Fabric.updNi_ni_self]; exact hq) heid, Fabric.updNi_updNi]
  have hmiss' : ((f.admitWindow p c eid win rest).ni p).tcFind e.work.dom page = none := by
    rw [← hmiss, hadmit, Fabric.updNi_ni_self]
    rfl
  rw [Fabric.lookPage, hmiss']
  dsimp only
  rw [hadmit, Fabric.updNi_updNi, Fabric.updWin_only (e := e.window win _)
    (by rw [Fabric.updNi_ni_self, Ni.holds, NMap.get_put_self]) heid, Fabric.updNi_updNi]
  simp [Fabric.pageMissed, Ni.holds, Ni.missed, QEntry.window, NMap.put_put, XWin.awaits, List.modify_modify_eq,
    Function.comp_def]

/-- A page that no request is out for is asked for, where nothing else waits (08 R191). -/
theorem Fabric.pumpWalks_only {f : Fabric} {page : BitVec 36} {x : XWin}
    (hidle : ∀ k ∈ (f.ni p).tsq.chans, ∀ y ∈ k.2.queue, ∀ z ∈ y.work.wins, z.waiting = [])
    (he : e ∈ ((f.ni p).tsq.chans.get c {}).queue) (hlive : e.aborted = false) (hx : e.work.wins[win]? = some x)
    (hout : (f.ni p).walksOut < 16) (hsent : (f.ni p).walkSent c e.eid win page = false) :
    let g := f.pageMissed p c win rest e page
    g.pumpWalks p = g.walkPacket p c e.eid win e.work.dom (BitVec.ofNat 6 (opcOf e.op)) page := by
  intro g
  have hg : g.ni p = ((f.ni p).missed rest).holds c (e.window win (·.awaits page)) :=
    f.pageMissed_ni ..
  have hwins : ∀ z ∈ e.work.wins, z.waiting = [] := by
    rcases NMap.get_listed (f.ni p).tsq.chans c {} with h | h
    · rw [h] at he
      cases he
    · exact hidle _ h e he
  have hdue : (g.ni p).walksDue = [(c, e.window win (·.awaits page), win, page)] := by
    rw [hg]
    refine (NMap.flatMap_put fun k hk => ?_).trans ?_
    · refine List.flatMap_eq_nil_iff.2 fun y hy => ?_
      split
      · rfl
      · exact List.flatMap_eq_nil_iff.2 fun z hz => by simp [hidle k hk y hy z.1 (List.of_mem_zip hz).1]
    · rw [List.flatMap_singleton, if_neg (by simp [QEntry.window, hlive])]
      refine (flatMap_zip_modify (·.awaits page) hx fun y hy j => ?_).trans rfl
      simp [hwins y hy]
  rw [Fabric.pumpWalks_eq, hdue]
  simp only [List.foldl_cons, List.foldl_nil, Fabric.pumpWalk]
  rw [if_pos]
  · rfl
  · rw [hg]
    simpa [hout] using ⟨hout, hsent⟩

/-- The page of a one-page window that is not in the cache is asked for (08 R191). -/
theorem pretranslateWindow_missed {x : XWin} {page : BitVec 36} (hs : s.fab.seqLive (.tsq p c) = true)
    (hq : (s.fab.ni p).ini.walkQ = (c, eid, win) :: rest) (he : s.fab.entry (.tsq p c) eid = some e)
    (honly : (s.fab.chan (.tsq p c)).queue = [e]) (hlive : e.aborted = false) (hx : e.work.wins[win]? = some x)
    (hpages : x.pages = [page]) (hmiss : (s.fab.ni p).tcFind e.work.dom page = none)
    (hadmit : (s.fab.ni p).admits e.work.dom [page] = true)
    (hidle : ∀ k ∈ (s.fab.ni p).tsq.chans, ∀ y ∈ k.2.queue, ∀ z ∈ y.work.wins, z.waiting = [])
    (hout : (s.fab.ni p).walksOut < 16) (hsent : (s.fab.ni p).walkSent c eid win page = false) :
    gives (.pretranslateWindow p c) s
      ((s.fab.pageMissed p c win rest e page).walkPacket p c eid win e.work.dom (BitVec.ofNat 6 (opcOf e.op)) page) := by
  have heid : e.eid = eid := by simpa using List.find?_some (p := fun y : QEntry => y.eid == eid) he
  subst heid
  have hqueue : e ∈ ((s.fab.ni p).tsq.chans.get c {}).queue :=
    honly.symm ▸ (List.mem_singleton_self e : e ∈ [e])
  have h := (gives_pretranslateWindow hs hq he).2
  rw [hx, Option.map_some, Option.getD_some, hpages] at h
  replace h := h hadmit
  rw [List.foldl_cons, List.foldl_nil, Fabric.lookPage_missed honly rfl hmiss,
    Fabric.pumpWalks_only hidle hqueue hlive hx hout hsent,
    Fabric.settleWindow_waiting (e := e.window win (·.awaits page)) (x := x.awaits page)] at h
  · exact h
  · rw [Fabric.entry, Fabric.chan, Fabric.walkPacket_tsq, Fabric.pageMissed_ni, Ni.holds, NMap.get_put_self]
    simp [QEntry.window]
  · simp [QEntry.window, hx]
  · simp [XWin.awaits]

end

end Sys2Proof.Machine
end

section
/-! SUPPORT. The answer of a walk, and the request of a TREE (08 R191; 10 R231). -/

namespace Sys2Proof.Machine

/-- A missing entry is filled while the cache has room (08 R188). -/
theorem Ni.tcFill_room {n : Ni} {d : BitVec 6} {page : BitVec 36} (frame : BitVec 20) (wp : Bool)
    (hmiss : n.tcFind d page = none) (hroom : n.ini.tcache.length < 256) :
    (n.tcFill d page frame wp).ini.tcache = n.ini.tcache ++
      [{ id := n.ini.tcNext, dom := d, page := page, frame := frame, wp := wp, stamp := n.ini.stamp + 1 }] := by
  simp [Ni.tcFill, hmiss, hroom]

section
variable {s : State} {p : Nat}

theorem gives_walkAnswer {a : Packet} (hm : s.fab.moving = true) (hk : s.fab.kind p = 1) (hp : s.fab.powered p = true)
    (ha : a.hdr.kind = 2) : gives (.walkAnswer p a) s ((s.fab.niCount p 1 a.hdr).takeAnswer p a) :=
  gives_when (c := .walkAnswer p a) (s := s) (b := fun f => f.moving && f.kind p == 1 && f.powered p && a.hdr.kind == 2)
    (g := fun f => (f.niCount p 1 a.hdr).takeAnswer p a) rfl (by simp [hm, hk, hp, ha])

/-- A good answer to a walk, sent after every withdrawal of its page, ends the walk (08 R191). -/
theorem Fabric.takeAnswer_walk {f : Fabric} {a : Packet} {o : OrtEntry} {c e w : Nat} {d : BitVec 6} {page : BitVec 36}
    {wp : Bool} {frame : BitVec 20} (ha : a.hdr.kind = 2) (hgood : badHeader a.hdr = false)
    (ho : (f.ni p).ini.ort.find? (fun x => x.matches a.hdr) = some o) (hdom : o.dom = a.hdr.domain)
    (hpurpose : o.purpose = .walk c e w d page) (hfresh : o.nack ≠ 1) (hst : statusOfHdr a.hdr = .ok)
    (hentry : walkEntry a = some (true, wp, frame)) :
    f.takeAnswer p a = (f.consumeEntry p o a).walkDone p c e w d page (some (wp, frame)) := by
  have hcount : o.miscounts a.hdr = false := by simp [OrtEntry.miscounts, ha]
  simp [Fabric.takeAnswer, Fabric.takeWalk, hgood, ho, hdom, hcount, ha, hpurpose, hfresh, hst, hentry]

/-- The descriptor of a set-up is sent once it has been read (10 R231). -/
theorem gives_treeDescriptorLoad {c : Nat} {e : QEntry} (d : BitVec 512) (hs : s.fab.seqLive (.tsq p c) = true)
    (hr : s.fab.running (.tsq p c) ocTree = some e) (hact : fld e.op 95 94 = 0) (htags : e.work.tags = [])
    (hlive : e.aborted = false) :
    gives (.treeDescriptorLoad p c d) s
      ((s.fab.updChan (.tsq p c) fun k => { k with reason := if k.halted then 8 else 0 }).sendTree p c e 0
        (toBytesLE d.toNat 64)) := by
  have h := gives_when (c := .treeDescriptorLoad p c d) (s := s) (b := fun f => f.seqLive (.tsq p c)) rfl hs
  rw [hr] at h
  simpa [hact, htags, hlive] using h

end

theorem toBytesLE_length (n k : Nat) : (toBytesLE n k).length = k := by
  induction k generalizing n with
  | zero => rfl
  | succ k ih => simp [toBytesLE, ih]

/-- The request of a TREE joins its channel's queue. -/
theorem Fabric.sendTree_injQ (f : Fabric) (p c : Nat) (e : QEntry) (tact : Nat) (body : Bytes) :
    ∃ o, (f.sendTree p c e tact body).injQ p c = f.injQ p c ++ [o] ∧ o.purpose = some (.tree c e.eid) ∧
      o.pkt.hdr.kind = 1 ∧ o.pkt.hdr.bcnt = BitVec.ofNat 13 body.length ∧ o.pkt.body = body ∧
      o.pkt.hdr.dest = f.destOf p (slicePort (dieOfPort p)) := by
  refine ⟨_, (Fabric.enqueue_injQ_self ..).trans (congrArg (· ++ [_]) ?_), rfl, rfl, rfl, rfl, rfl⟩
  exact (Fabric.updNi_injQ _ _ rfl _).trans (Fabric.updNi_injQ _ _ rfl _)

end Sys2Proof.Machine
end

section
/-! SUPPORT. Withdrawal notices (08 R193, R194; log entry 104). -/

namespace Sys2Proof.Machine

/-! ## The receive buffer -/

theorem takeVc_none {t : QPkt → Bool} {f : Fabric} {p : Nat} (h : ∀ q ∈ (f.ni p).vq.flatMap (·.2), t q = false)
    (vs : List Nat) : takeVc t f p vs = none := by
  induction vs with
  | nil => rfl
  | cons v vs ih =>
    rw [takeVc]
    split
    · exact ih
    next q qs hv =>
      have hq : t q = false := by
        rcases NMap.get_listed (f.ni p).vq v [] with h0 | hmem
        · simp [h0] at hv
        · exact h q (List.mem_flatMap.2 ⟨_, hmem, by simp [hv]⟩)
      simp [hq, ih]

/-- A packet that is not in the receive buffer leaves it as it is. -/
theorem Fabric.leaveBuffer_absent {f : Fabric} {p : Nat} {h : Header}
    (habs : ∀ q ∈ (f.ni p).vq.flatMap (·.2), q.hdr ≠ h) : f.leaveBuffer p h = f := by
  rw [Fabric.leaveBuffer, takeVc_none fun q hq => by simpa using habs q hq]

/-! ## Refusals and answers -/

/-- A refused write is answered with its status. -/
theorem Fabric.niRefuse_write (f : Fabric) (p : Nat) {h : Header} (hk : h.kind = 1) :
    (∃ o, (f.niRefuse p h .malformed).injQ p 101 = f.injQ p 101 ++ [o] ∧
      o.pkt.hdr.status = BitVec.ofNat 4 (statusCode .malformed) ∧ o.pkt.hdr.dest = h.src) ∧
    ((f.niRefuse p h .malformed).ni p).ini = (f.ni p).ini := by
  have href : f.niRefuse p h .malformed =
      (f.niErr p 8).answer p { hdr := answerHdr h 3 .malformed (f.node p) p, aux := 0 } := by
    simp [Fabric.niRefuse, refusal, hk, answerKind, Fabric.answer?, Fabric.niErr, Fabric.node, Fabric.niReg]
  rw [href]
  refine ⟨⟨_, (Fabric.answer_injQ _).trans (congrArg (· ++ [_]) (Fabric.updNi_injQ _ _ rfl _)), rfl, rfl⟩, ?_⟩
  simp [Fabric.answer, Fabric.enqueue, Fabric.setInjQ, Fabric.niErr]

theorem Fabric.answerNotice_injQ (f : Fabric) (p : Nat) (x : Packet) :
    ∃ o, (f.answerNotice p x).injQ p 101 = f.injQ p 101 ++ [o] ∧ o.pkt.hdr.kind = 3 ∧ o.pkt.hdr.status = 0 ∧
      o.pkt.hdr.bcnt = 8 ∧ o.pkt.hdr.dest = x.hdr.src :=
  ⟨_, (Fabric.updNi_injQ _ _ rfl _).trans (Fabric.answer_injQ _), rfl, rfl, rfl, rfl⟩

theorem Fabric.answerNotice_ini (f : Fabric) (p : Nat) (x : Packet) :
    ((f.answerNotice p x).ni p).ini = { (f.ni p).ini with answered := (f.ni p).ini.answered + 1 } := by
  simp [Fabric.answerNotice, Fabric.answer, Fabric.enqueue, Fabric.setInjQ]

/-! ## Taking a notice up (08 R194) -/

/-- No window holds the page locked. -/
def Ni.unpinned (n : Ni) (page : BitVec 36) : Prop :=
  ∀ k ∈ n.tsq.chans, ∀ e ∈ k.2.queue, ∀ w ∈ e.work.wins, w.locks.find? page.toNat = none

theorem Fabric.retranslate_unpinned {f : Fabric} {p : Nat} {page : BitVec 36} (h : (f.ni p).unpinned page) (dom : BitVec 6) :
    f.retranslate p dom page = f := by
  have hits {β : Type} (u : Nat → QEntry → XWin × Nat → β) :
      ((f.ni p).tsq.chans.flatMap fun c => c.2.queue.flatMap fun e =>
        (e.work.wins.zip (List.range e.work.wins.length)).filterMap fun w =>
          if e.work.dom == dom && (w.1.locks.find? page.toNat).isSome && !w.1.issued && !w.1.faulted then some (u c.1 e w)
          else none) = [] := by
    refine List.flatMap_eq_nil_iff.2 fun c hc => List.flatMap_eq_nil_iff.2 fun e he => List.filterMap_eq_nil_iff.2 fun w hw => ?_
    simp [h c hc e he w.1 (List.of_mem_zip hw).1]
  rw [Fabric.retranslate, hits fun c e w => (c, e, w.2)]
  rfl

/-- The NI once the entry that a notice names is being withdrawn, and `u` has marked the walks of its page. -/
def Ni.withdraws (n : Ni) (hit : Option Nat) (u : OrtEntry → OrtEntry) : Ni := { n with ini := { n.ini with
  tcache := n.ini.tcache.map fun t => if some t.id == hit then { t with withdrawing := true } else t
  ort := n.ini.ort.map u } }

/-- The walks of a page that were sent before its withdrawal: their answers will be discarded. -/
def OrtEntry.staleFor (dom : BitVec 6) (page : BitVec 36) (o : OrtEntry) : OrtEntry :=
  match o.purpose with
  | .walk _ _ _ d q => if d == dom && q == page then { o with nack := 1 } else o
  | _ => o

theorem OrtEntry.staleFor_tc (dom : BitVec 6) (page : BitVec 36) (o : OrtEntry) : (o.staleFor dom page).tc = o.tc := by
  unfold OrtEntry.staleFor
  split
  · split <;> rfl
  · rfl

/-- A notice whose entry is being withdrawn is answered where nothing names the entry, or waits. -/
def Fabric.settleNotice (f : Fabric) (p : Nat) (x : Packet) : Option Nat → Fabric
  | none => f.answerNotice p x
  | some id =>
    if (f.ni p).entryFree id then
      (f.updNi p fun n => { n with ini := { n.ini with tcache := n.ini.tcache.filter fun t => t.id != id } }).answerNotice p x
    else f.updNi p fun n => { n with ini := { n.ini with notices := n.ini.notices ++ [(x, id)] } }

section
variable {f : Fabric} {p : Nat} {x : Packet} (habs : ∀ q ∈ (f.ni p).vq.flatMap (·.2), q.hdr ≠ x.hdr)
  (hpins : (f.ni p).unpinned (noticePage x))
include habs hpins

theorem Fabric.takeNotice_unpinned :
    let hit := ((f.ni p).tcFind x.hdr.domain (noticePage x)).map (·.id)
    f.takeNotice p x =
      (f.updNi p (·.withdraws hit (OrtEntry.staleFor x.hdr.domain (noticePage x)))).settleNotice p x hit := by
  unfold Fabric.takeNotice
  rw [Fabric.leaveBuffer_absent habs]
  dsimp only
  rw [Fabric.retranslate_unpinned (by rw [Fabric.updNi_ni_self]; exact hpins)]
  cases (f.ni p).tcFind x.hdr.domain (noticePage x) <;> rfl

end

/-- An entry that an open request names is not free. -/
theorem Ni.entryFree_named {n : Ni} {t : TcEntry} {o : OrtEntry} (ht : t ∈ n.ini.tcache) (ho : o ∈ n.ini.ort)
    (hn : o.tc = some t.id) : n.entryFree t.id = false := by
  have huse : n.tcUse t ≠ 0 := by simpa [Ni.tcUse] using ⟨o, ho, hn⟩
  have hfree : n.tcFree t = false := by simp [Ni.tcFree, huse]
  exact List.all_eq_false.2 ⟨t, ht, by simp [hfree]⟩

/-- A notice leaves those in progress, its entry leaves the cache, and it is answered. -/
def Fabric.releases (f : Fabric) (p : Nat) (x : Packet × Nat) (rest : List (Packet × Nat)) : Fabric :=
  (f.updNi p fun n => { n with ini := { n.ini with
    notices := rest, tcache := n.ini.tcache.filter fun t => t.id != x.2 } }).answerNotice p x.1

theorem Fabric.releases_ini (f : Fabric) (p : Nat) (x : Packet × Nat) (rest : List (Packet × Nat)) :
    ((f.releases p x rest).ni p).ini = { (f.ni p).ini with
      notices := rest, tcache := (f.ni p).ini.tcache.filter fun t => t.id != x.2, answered := (f.ni p).ini.answered + 1 } := by
  rw [Fabric.releases, Fabric.answerNotice_ini, Fabric.updNi_ni_self]

/-! ## The commands -/

section
variable {s : State} {p : Nat} (hm : s.fab.moving = true) (hk : s.fab.kind p = 1) (hp : s.fab.powered p = true)
include hm hk hp

theorem gives_withdrawalNotice {x : Packet} (hx : isNotice x.hdr = true) : gives (.withdrawalNotice p x) s
    (if badHeader x.hdr || s.fab.kind (fld x.hdr.src 9 0) != 6 || fld x.hdr.src 25 10 != s.fab.node p then
      (s.fab.leaveBuffer p x.hdr).niRefuse p x.hdr .malformed
    else if (s.fab.ni p).ini.notices.length ≥ 32 then
      if (s.fab.ni p).ini.noticeWait.contains x then s.fab
      else s.fab.updNi p fun n => { n with ini := { n.ini with noticeWait := n.ini.noticeWait ++ [x] } }
    else s.fab.takeNotice p x) :=
  gives_when (c := .withdrawalNotice p x) (s := s)
    (b := fun f => f.moving && f.kind p == 1 && f.powered p && isNotice x.hdr) rfl (by simp [hm, hk, hp, hx])

/-- A notice from another port than the translation service's is refused (08 R193). -/
theorem withdrawalNotice_refused {x : Packet} (hx : isNotice x.hdr = true)
    (hbad : badHeader x.hdr = true ∨ s.fab.kind (fld x.hdr.src 9 0) ≠ 6)
    (habs : ∀ q ∈ (s.fab.ni p).vq.flatMap (·.2), q.hdr ≠ x.hdr) :
    gives (.withdrawalNotice p x) s (s.fab.niRefuse p x.hdr .malformed) := by
  have h := gives_withdrawalNotice hm hk hp hx
  rwa [if_pos (by simpa using .inl hbad), Fabric.leaveBuffer_absent habs] at h

section
variable {x : Packet} (hx : isNotice x.hdr = true) (hgood : badHeader x.hdr = false)
  (hsrc : s.fab.kind (fld x.hdr.src 9 0) = 6) (hnode : fld x.hdr.src 25 10 = s.fab.node p)
include hx hgood hsrc hnode

/-- With 32 in progress a notice waits (08 R193). -/
theorem withdrawalNotice_waits (hfull : 32 ≤ (s.fab.ni p).ini.notices.length) (hnew : x ∉ (s.fab.ni p).ini.noticeWait) :
    gives (.withdrawalNotice p x) s
      (s.fab.updNi p fun n => { n with ini := { n.ini with noticeWait := n.ini.noticeWait ++ [x] } }) := by
  have h := gives_withdrawalNotice hm hk hp hx
  rwa [if_neg (by simp [hgood, hsrc, hnode]), if_pos hfull, if_neg (by simpa using hnew)] at h

theorem withdrawalNotice_taken (hroom : (s.fab.ni p).ini.notices.length < 32) :
    gives (.withdrawalNotice p x) s (s.fab.takeNotice p x) := by
  have h := gives_withdrawalNotice hm hk hp hx
  rwa [if_neg (by simp [hgood, hsrc, hnode]), if_neg (by omega)] at h

end

/-- The oldest notice whose entry nothing names is answered (08 R194 rule 4). -/
theorem gives_noticeRelease {x : Packet × Nat} {rest : List (Packet × Nat)}
    (hx : takeFirst (fun y => (s.fab.ni p).entryFree y.2) (s.fab.ni p).ini.notices = some (x, rest)) :
    ((s.fab.ni p).ini.noticeWait = [] → gives (.noticeRelease p) s (s.fab.releases p x rest)) ∧
    (∀ y more, (s.fab.ni p).ini.noticeWait = y :: more → gives (.noticeRelease p) s
      (((s.fab.releases p x rest).updNi p fun n => { n with ini := { n.ini with noticeWait := more } }).takeNotice p y)) := by
  have h := gives_when (c := .noticeRelease p) (s := s) (b := fun f => f.moving && f.kind p == 1 && f.powered p) rfl
    (by simp [hm, hk, hp])
  have hwait : ((s.fab.releases p x rest).ni p).ini.noticeWait = (s.fab.ni p).ini.noticeWait := by
    simp [Fabric.releases_ini]
  dsimp only at h
  rw [hx] at h
  dsimp only at h
  split at h
  next hnone =>
    have h0 : (s.fab.ni p).ini.noticeWait = [] := hwait.symm.trans hnone
    exact ⟨fun _ => h, fun y more hy => by simp [h0] at hy⟩
  next y more hy =>
    have h0 : (s.fab.ni p).ini.noticeWait = y :: more := hwait.symm.trans hy
    refine ⟨fun hnone => by simp [h0] at hnone, fun y' more' hy' => ?_⟩
    obtain ⟨rfl, rfl⟩ := List.cons.inj (h0.symm.trans hy')
    exact h

end

end Sys2Proof.Machine
end

section
/-! SUPPORT. Translation at an NI, command by command (08 R189-R194; 10 R231). -/

namespace Sys2Proof.Machine

theorem kind_of_isNotice {h : Header} (hx : isNotice h = true) : h.kind = 1 := by
  simp only [isNotice, Bool.and_eq_true, beq_iff_eq] at hx
  obtain ⟨⟨hk, -⟩, -⟩ := hx
  exact hk

section
variable {s : State} {p : Nat} {x : Packet} (hm : s.fab.moving = true) (hk : s.fab.kind p = 1) (hp : s.fab.powered p = true)
  (hx : isNotice x.hdr = true) (hgood : badHeader x.hdr = false) (hsrc : s.fab.kind (fld x.hdr.src 9 0) = 6)
  (hnode : fld x.hdr.src 25 10 = s.fab.node p) (hroom : (s.fab.ni p).ini.notices.length < 32)
  (habs : ∀ q ∈ (s.fab.ni p).vq.flatMap (·.2), q.hdr ≠ x.hdr) (hpins : (s.fab.ni p).unpinned (noticePage x))
include hm hk hp hx hgood hsrc hnode hroom habs hpins

/-- A notice of a page that no entry holds is answered at once. -/
theorem withdrawalNotice_missing (hmiss : (s.fab.ni p).tcFind x.hdr.domain (noticePage x) = none) :
    answers (.withdrawalNotice p x) s fun h => (h.ni p).ini.answered = (s.fab.ni p).ini.answered + 1 ∧
      ∃ o, h.injQ p 101 = s.fab.injQ p 101 ++ [o] ∧ o.pkt.hdr.kind = 3 ∧ o.pkt.hdr.status = 0 ∧ o.pkt.hdr.bcnt = 8 ∧
        o.pkt.hdr.dest = x.hdr.src := by
  have h := withdrawalNotice_taken hm hk hp hx hgood hsrc hnode hroom
  rw [Fabric.takeNotice_unpinned habs hpins, hmiss] at h
  obtain ⟨o, ho, hfields⟩ := Fabric.answerNotice_injQ
    (s.fab.updNi p (·.withdraws none (OrtEntry.staleFor x.hdr.domain (noticePage x)))) p x
  refine h.answers ⟨?_, o, ho.trans (congrArg (· ++ [o]) (Fabric.updNi_injQ _ _ rfl _)), hfields⟩
  simp [Fabric.settleNotice, Fabric.answerNotice_ini, Ni.withdraws]

/-- A notice of a page whose entry an open request names waits for it. -/
theorem withdrawalNotice_inUse {t : TcEntry} {r : OrtEntry}
    (ht : (s.fab.ni p).tcFind x.hdr.domain (noticePage x) = some t) (hr : r ∈ (s.fab.ni p).ini.ort) (hname : r.tc = some t.id) :
    answers (.withdrawalNotice p x) s fun h => (h.ni p).ini.notices = (s.fab.ni p).ini.notices ++ [(x, t.id)] ∧
      h.injQ p 101 = s.fab.injQ p 101 ∧ ∀ y ∈ (h.ni p).ini.tcache, y.id = t.id → y.withdrawing = true := by
  have h := withdrawalNotice_taken hm hk hp hx hgood hsrc hnode hroom
  rw [Fabric.takeNotice_unpinned habs hpins, ht, Option.map_some] at h
  have hused : ((s.fab.ni p).withdraws (some t.id) (OrtEntry.staleFor x.hdr.domain (noticePage x))).entryFree t.id = false := by
    refine Ni.entryFree_named (t := { t with withdrawing := true }) (o := r.staleFor x.hdr.domain (noticePage x))
      (List.mem_map.2 ⟨t, List.mem_of_find?_eq_some ht, by simp⟩) (List.mem_map_of_mem hr) ?_
    rw [OrtEntry.staleFor_tc, hname]
  rw [Fabric.settleNotice, Fabric.updNi_ni_self, if_neg (by simp [hused])] at h
  refine h.answers ⟨by simp [Ni.withdraws], (Fabric.updNi_injQ _ _ rfl _).trans (Fabric.updNi_injQ _ _ rfl _),
    fun y hy hid => ?_⟩
  rw [Fabric.updNi_ni_self, Fabric.updNi_ni_self] at hy
  obtain ⟨z, -, rfl⟩ := List.mem_map.1 hy
  split at hid
  next hz => simp [hz]
  next hz => exact absurd (by simp [hid]) hz

end

/-- Settles O40, command by command (log entry 104). -/
theorem translationSteps : Obligations.TranslationSteps := by
  refine ⟨fun s p c eid win rest e hs hq he => ⟨fun hno => ?_, fun hyes => ?_, ?window⟩,
    fun s p a hm hk hp ha => ⟨gives_walkAnswer hm hk hp ha, ?walk⟩,
    fun n d page frame wp hmiss hroom => ⟨_, Ni.tcFill_room frame wp hmiss hroom, rfl, rfl, rfl, rfl, rfl⟩,
    ?refused, ?waits,
    fun s p x hm hk hp hx hgood hsrc hnode hroom habs hpins =>
      ⟨withdrawalNotice_missing hm hk hp hx hgood hsrc hnode hroom habs hpins,
        fun t r => withdrawalNotice_inUse hm hk hp hx hgood hsrc hnode hroom habs hpins⟩,
    ?release, ?tree⟩
  · exact (gives_pretranslateWindow hs hq he).1 hno
  · exact (gives_pretranslateWindow hs hq he).2 hyes
  case window =>
    intro x page honly hlive hx hpages hmiss hadmit hidle hout hsent
    have h := pretranslateWindow_missed hs hq he honly hlive hx hpages hmiss hadmit hidle hout hsent
    obtain ⟨t, hini⟩ := Fabric.walkPacket_ini (s.fab.pageMissed p c win rest e page) p c eid win e.work.dom
      (BitVec.ofNat 6 (opcOf e.op)) page
    rw [Fabric.pageMissed_ni] at hini
    obtain ⟨o, ho, hpurpose, hkind, hbcnt, hdest⟩ := Fabric.walkPacket_injQ (s.fab.pageMissed p c win rest e page) p c eid win
      e.work.dom (BitVec.ofNat 6 (opcOf e.op)) page
    rw [Fabric.pageMissed_injQ] at ho
    rw [Fabric.pageMissed_destOf] at hdest
    exact h.answers ⟨by rw [hini]; rfl, by rw [hini]; rfl, o, ho, hpurpose, hkind, hbcnt, hdest⟩
  case walk =>
    intro o c e w d page wp frame hgood ho hdom hpurpose hfresh hst hentry
    refine Fabric.takeAnswer_walk ha hgood ?_ hdom hpurpose hfresh hst hentry ▸ gives_walkAnswer hm hk hp ha
    simpa [Fabric.niCount] using ho
  case refused =>
    intro s p x hm hk hp hx hbad habs
    obtain ⟨⟨o, ho, hst, hdest⟩, hini⟩ := s.fab.niRefuse_write p (kind_of_isNotice hx)
    exact (withdrawalNotice_refused hm hk hp hx hbad habs).answers ⟨o, ho, hst, hdest, hini⟩
  case waits =>
    intro s p x hm hk hp hx hgood hsrc hnode hfull hnew
    exact (withdrawalNotice_waits hm hk hp hx hgood hsrc hnode hfull hnew).answers
      ⟨Fabric.updNi_ni_self .., fun q hq => Fabric.updNi_ni_ne _ _ hq, rfl⟩
  case release =>
    intro s p x rest hm hk hp hx f1
    obtain ⟨hnone, hmore⟩ := gives_noticeRelease hm hk hp hx
    have hini : (f1.ni p).ini = _ := s.fab.releases_ini p x rest
    obtain ⟨o, ho, hkind, hst, -, hdest⟩ := Fabric.answerNotice_injQ (s.fab.updNi p fun n => { n with ini := { n.ini with
      notices := rest, tcache := n.ini.tcache.filter fun t => t.id != x.2 } }) p x.1
    refine ⟨fun h0 => ⟨hnone h0, by rw [hini], fun t ht => ?_, o,
      ho.trans (congrArg (· ++ [o]) (Fabric.updNi_injQ _ _ rfl _)), hkind, hst, hdest⟩, hmore⟩
    rw [hini] at ht
    simpa using (List.mem_filter.1 ht).2
  case tree =>
    intro s p c d e hs hr hact htags hlive g
    refine ⟨gives_treeDescriptorLoad d hs hr hact htags hlive, ?_⟩
    obtain ⟨o, ho, hpurpose, hkind, hbcnt, hbody, hdest⟩ := Fabric.sendTree_injQ
      (s.fab.updChan (.tsq p c) fun k => { k with reason := if k.halted then 8 else 0 }) p c e 0 (toBytesLE d.toNat 64)
    refine ⟨o, ho.trans (congrArg (· ++ [o]) (Fabric.updNi_injQ _ _ rfl _)), hpurpose, hkind, ?_, hbody, ?_⟩
    · rw [hbcnt, toBytesLE_length]
      rfl
    · rw [hdest]
      simp [Fabric.destOf, Fabric.node, Fabric.niReg, Fabric.updChan, Fabric.setChan]

end Sys2Proof.Machine
end

section
/-! SUPPORT. Leaf copies and root results, at the NI that stores them and at the one that reports what its stack has
committed, and a read of the digest (09 R219; 10 R240, R241; 12 R290; log entry 40). -/

namespace Sys2Proof.Machine

/-! ## The two commands of a report -/

/-- A committed copy or result leaves its place, its poison is counted, and its leaf slot gets its status. -/
theorem Fabric.reportPlace_committed {f : Fabric} {p k slot : Nat} {pl : Place} {root : Bool}
    (h : (f.ni p).tgt.committed root = some (k, pl, slot)) : f.reportPlace p root =
      ((f.updNi p fun n => { n with tgt := { n.tgt with places := n.tgt.places.del k } }).countPoison p pl).leafReported p slot
        (if pl.part then .partPoison else .ok) := by
  rw [Fabric.reportPlace, h]

section
variable {c : Instr} {s : State} {p : Nat} {root : Bool} {t : Fabric → QPkt → Bool}
  {k : Fabric → Packet → QPkt → Fabric}
  (hc : exec c s = s.run fun f => f.when (f.moving && f.kind p != 0 && f.powered p) fun f =>
    if f.kind p == 2 then f.reportPlace p root else f.niTake p (t f) k)
include hc

/-- A Target NI reports the oldest copy or result that its stack has committed. -/
theorem gives_report_target {n slot : Nat} {pl : Place} (ha : niActs s.fab p 2)
    (hn : (s.fab.ni p).tgt.committed root = some (n, pl, slot)) : gives c s
      (((s.fab.updNi p fun x => { x with tgt := { x.tgt with places := x.tgt.places.del n } }).countPoison p pl).leafReported
        p slot (if pl.part then .partPoison else .ok)) := by
  obtain ⟨hm, hk, hp⟩ := ha
  have h := gives_when hc (by simp [hm, hk, hp])
  rw [hk] at h
  rwa [← Fabric.reportPlace_committed hn]

/-- A Core NI takes the copy or the result from its receive buffer. -/
theorem gives_report_core {q : QPkt} {g : Fabric} (ha : niActs s.fab p 1) (hd : delivers s.fab p (t s.fab) q g) :
    gives c s (k g q.packet q) := by
  obtain ⟨hm, hk, hp⟩ := ha
  have h := gives_when hc (by simp [hm, hk, hp])
  rw [hk] at h
  rwa [← Fabric.niTake_delivered k hd]

end

/-! ## What a Core NI stores (08 R187; 09 R219; 10 R240, R241) -/

section
variable {s : State} {p : Nat} {q : QPkt} {g : Fabric} (ha : niActs s.fab p 1) (hg : g.kind p = 1)
  (hgood : badHeader q.packet.hdr = false)
include ha hg hgood

/-- A multicast copy is stored whatever bounds the local memory has set for requests (log entry 40). -/
theorem leafReport_stored (hd : delivers s.fab p (fun x => x.hdr.kind == 5 && x.hdr.cls == 4) q g) :
    gives (.leafReport p) s ((g.lmWrite p q.packet.hdr.addr.toNat q.packet.body).leafReported p q.side.toNat .ok) := by
  have h := gives_report_core (c := .leafReport p) (t := fun _ x => x.hdr.kind == 5 && x.hdr.cls == 4) rfl ha hd
  simpa [hg, hgood] using h

/-- A root port's result is stored only where the local memory is open to writes (08 R187; 10 R241). -/
theorem rootResultReport_taken (hd : delivers s.fab p (fun x => x.hdr.kind == 8 && s.fab.rootCopy p x) q g) :
    gives (.rootResultReport p) s
      (if g.lmOpen p (resultAddr q.packet.hdr q.packet.aux) q.packet.body.length true then
        (g.lmWrite p (resultAddr q.packet.hdr q.packet.aux) q.packet.body).leafReported p q.side.toNat .ok
      else (g.niErr p 8).leafReported p q.side.toNat .malformed) := by
  have h := gives_report_core (c := .rootResultReport p) (t := fun f x => x.hdr.kind == 8 && f.rootCopy p x) rfl ha hd
  cases hopen : g.lmOpen p (resultAddr q.packet.hdr q.packet.aux) q.packet.body.length true <;>
    simpa [hg, hgood, hopen] using h

end

/-! ## The digest (12 R290) -/

theorem gives_digestRead {s : State} {r : Packet} (hm : s.fab.moving = true) (hr : r.hdr.kind = 0)
    (habs : ∀ q ∈ (s.fab.ni fmuPort).vq.flatMap (·.2), q.hdr ≠ r.hdr) :
    gives (.digestRead r) s (s.fab.answer fmuPort (s.fab.digestAnswer r.hdr)) := by
  have h := gives_when (c := .digestRead r) (s := s) (b := fun f => f.moving && r.hdr.kind == 0) rfl (by simp [hm, hr])
  rwa [Fabric.leaveBuffer_absent habs] at h

/-- The security service's read of the 64 bytes, from this node, is answered with the digest. -/
theorem Fabric.digestAnswer_granted (f : Fabric) {h : Header} (hk : h.kind = 0) (hport : fld h.src 9 0 = securityPort)
    (hnode : fld h.src 25 10 = f.node fmuPort) (hn : h.bcnt = 64) (ha : h.addr = (0xFE0000000000 : BitVec 48)) :
    f.digestAnswer h =
      { hdr := { answerHdr h 2 .ok (f.node fmuPort) fmuPort with bcnt := 64, len := 1 }
        body := ([f.fmu.res.dig.head, f.fmu.res.dig.word 1, f.fmu.res.dig.word 2, f.fmu.res.dig.word 3].flatMap fun w =>
            toBytesLE w.toNat 4) ++
          ((List.range 12).flatMap fun i => toBytesBE (f.fmu.res.dig.word (4 + i)).toNat 4) } := by
  rw [Fabric.digestAnswer, if_neg (by simp [hk, hport, hnode, hn, ha])]

/-- Settles O44, unit by unit (log entry 40). -/
theorem leafAndRootReports : Obligations.LeafAndRootReports := by
  refine ⟨?leaf, ?root, ?target, ?digest⟩
  case leaf =>
    intro s p q g hm hk hp hd hg hgood
    exact leafReport_stored ⟨hm, hk, hp⟩ hg hgood hd
  case root =>
    intro s p q g hm hk hp hd hg hgood a
    have h := rootResultReport_taken ⟨hm, hk, hp⟩ hg hgood hd
    exact ⟨fun hopen => by rwa [if_pos hopen] at h, fun hshut => by rwa [if_neg (by simp [a, hshut])] at h⟩
  case target =>
    intro s p k slot pl ha done
    exact ⟨gives_report_target (root := false) rfl ha, gives_report_target (root := true) rfl ha⟩
  case digest =>
    intro s r hm hr habs a d
    refine ⟨gives_digestRead hm hr habs, fun hport hnode hn haddr => ?_⟩
    have hgranted : a = _ := s.fab.digestAnswer_granted hr hport hnode hn haddr
    rw [hgranted]
    exact ⟨rfl, rfl, rfl, rfl, rfl⟩

end Sys2Proof.Machine
end

section
/-! SUPPORT. The merge of partials: what a fold of merges is, whatever its order and its shape (10 R246, R250). -/

namespace Sys2Proof.Machine

/-! ## The codes that stand for flags (10 R246) -/

/-- The code that a merge answers where some partial is not finite. -/
def RedFlags.code (p : Nat) (f : RedFlags) : Int :=
  if f.nan || (f.pinf && f.ninf) then -redZ p
  else if f.pinf then redZ p - 1
  else if f.ninf then -(redZ p - 1)
  else if f.psat && f.nsat then redZ p - 3
  else if f.psat then redZ p - 2
  else -(redZ p - 2)

/-- What a code keeps of the flags it stands for: a NaN hides the rest, and an infinity a saturation. -/
def RedFlags.top (f : RedFlags) : RedFlags :=
  if f.nan || (f.pinf && f.ninf) then { nan := true }
  else if f.pinf then { pinf := true }
  else if f.ninf then { ninf := true }
  else { psat := f.psat, nsat := f.nsat }

theorem redMerge_eq (p : Nat) (a b : Int) : redMerge p a b =
    if redFinite p a && redFinite p b then a + b else ((redFlags p a).or (redFlags p b)).code p := rfl

theorem redFinite_iff {p : Nat} {s : Int} : redFinite p s = true ↔ redFlags p s = {} := beq_iff_eq

namespace RedFlags

variable (f g h : RedFlags)

theorem or_assoc : (f.or g).or h = f.or (g.or h) := by simp [RedFlags.or, Bool.or_assoc]

theorem or_left_comm : f.or (g.or h) = g.or (f.or h) := by simp [RedFlags.or, Bool.or_left_comm]

@[simp] theorem empty_or : RedFlags.or {} f = f := rfl

@[simp] theorem or_empty : f.or {} = f := by simp [RedFlags.or]

theorem or_eq_empty : f.or g = {} ↔ f = {} ∧ g = {} := by
  obtain ⟨a, b, c, d, e⟩ := f
  obtain ⟨a', b', c', d', e'⟩ := g
  simp only [RedFlags.or, mk.injEq, Bool.or_eq_false_iff]
  tauto

theorem top_eq_empty : f.top = {} ↔ f = {} := by
  obtain ⟨a, b, c, d, e⟩ := f
  revert a b c d e
  decide

/-- What a code has hidden, no later merge would have shown. -/
theorem top_or_top : (f.top.or g.top).top = (f.or g).top := by
  obtain ⟨a, b, c, d, e⟩ := f
  obtain ⟨a', b', c', d', e'⟩ := g
  revert a b c d e a' b' c' d' e'
  decide +kernel

theorem code_top (p : Nat) : f.top.code p = f.code p := by
  obtain ⟨a, b, c, d, e⟩ := f
  cases a <;> cases b <;> cases c <;> rfl

end RedFlags

/-! ## Flags of a code and of a small partial -/

/-- Z of a partial width of at least 5 bits. -/
theorem redZ_ge {p : Nat} (hp : 5 ≤ p) : 16 ≤ redZ p := by
  have h : (2 : Int) ^ 4 ≤ 2 ^ (p - 1) := pow_le_pow_right₀ (by norm_num) (by omega)
  simpa [redZ] using h

theorem redZ_eq_cast (p : Nat) : redZ p = ((2 ^ (p - 1) : Nat) : Int) := by
  simp [redZ]

section
variable {p : Nat} (hp : 5 ≤ p)
include hp

/-- A partial of at most Z - 8 in magnitude is no code. -/
theorem redFlags_small {s : Int} (hs : s.natAbs ≤ 2 ^ (p - 1) - 8) : redFlags p s = {} := by
  have hz := redZ_ge hp
  have hz' := redZ_eq_cast p
  generalize 2 ^ (p - 1) = n at hs hz'
  simp only [redFlags]
  simp only [beq_iff_eq]
  repeat' rw [if_neg (by omega)]

/-- The six codes are distinct, so each is read back as what it stands for. -/
theorem redFlags_of_code :
    redFlags p (-redZ p) = { nan := true } ∧ redFlags p (redZ p - 1) = { pinf := true } ∧
    redFlags p (-(redZ p - 1)) = { ninf := true } ∧ redFlags p (redZ p - 2) = { psat := true } ∧
    redFlags p (-(redZ p - 2)) = { nsat := true } ∧ redFlags p (redZ p - 3) = { psat := true, nsat := true } := by
  have hz := redZ_ge hp
  simp only [redFlags, beq_iff_eq]
  refine ⟨if_pos trivial, ?_, ?_, ?_, ?_, ?_⟩
  · rw [if_neg (by omega), if_pos trivial]
  · rw [if_neg (by omega), if_neg (by omega), if_pos trivial]
  · rw [if_neg (by omega), if_neg (by omega), if_neg (by omega), if_pos trivial]
  · rw [if_neg (by omega), if_neg (by omega), if_neg (by omega), if_neg (by omega), if_pos trivial]
  · rw [if_neg (by omega), if_neg (by omega), if_neg (by omega), if_neg (by omega), if_neg (by omega), if_pos trivial]

/-- The code of some flags is read back as the ones that it keeps. -/
theorem redFlags_code {f : RedFlags} (hf : f ≠ {}) : redFlags p (f.code p) = f.top := by
  obtain ⟨hnan, hpinf, hninf, hpsat, hnsat, hboth⟩ := redFlags_of_code hp
  match f with
  | ⟨true, _, _, _, _⟩ => exact hnan
  | ⟨false, true, true, _, _⟩ => exact hnan
  | ⟨false, true, false, _, _⟩ => exact hpinf
  | ⟨false, false, true, _, _⟩ => exact hninf
  | ⟨false, false, false, true, true⟩ => exact hboth
  | ⟨false, false, false, true, false⟩ => exact hpsat
  | ⟨false, false, false, false, true⟩ => exact hnsat
  | ⟨false, false, false, false, false⟩ => exact absurd rfl hf

end

/-- A partial that is not finite is the code of its own flags. -/
theorem code_redFlags {p : Nat} {s : Int} (hs : redFlags p s ≠ {}) : (redFlags p s).code p = s := by
  revert hs
  simp only [redFlags, beq_iff_eq]
  split_ifs with hnan hpinf hninf hpsat hnsat hboth
  exacts [fun _ => hnan.symm, fun _ => hpinf.symm, fun _ => hninf.symm, fun _ => hpsat.symm, fun _ => hnsat.symm,
    fun _ => hboth.symm, fun h => absurd rfl h]

/-! ## What a fold of merges is -/

/-- The flags of all the partials. -/
def redSeen (p : Nat) (l : List Int) : RedFlags := l.foldr (fun s f => (redFlags p s).or f) {}

/-- What the partials come to: their sum, or the code of their flags where some is not finite. -/
def redTotal (p : Nat) (l : List Int) : Int := if redSeen p l = {} then l.sum else (redSeen p l).code p

/-- The finite partials add up to at most Z - 8 in magnitude. -/
def redBounded (p : Nat) (l : List Int) : Prop :=
  ((l.filter (redFinite p)).map Int.natAbs).sum ≤ 2 ^ (p - 1) - 8

section
variable {p : Nat} {xs ys : List Int}

theorem redSeen_append : redSeen p (xs ++ ys) = (redSeen p xs).or (redSeen p ys) := by
  induction xs with
  | nil => rfl
  | cons x xs ih => exact (congrArg _ ih).trans (RedFlags.or_assoc ..).symm

theorem redSeen_perm (h : xs.Perm ys) : redSeen p xs = redSeen p ys :=
  h.foldr_eq' (fun x _ y _ f => RedFlags.or_left_comm (redFlags p y) (redFlags p x) f) _

theorem redSeen_eq_empty : redSeen p xs = {} ↔ ∀ x ∈ xs, redFinite p x = true := by
  induction xs with
  | nil => simp [redSeen]
  | cons x xs ih =>
    rw [List.forall_mem_cons, ← ih, redFinite_iff]
    exact RedFlags.or_eq_empty ..

theorem redTotal_singleton (x : Int) : redTotal p [x] = x := by
  have hseen : redSeen p [x] = redFlags p x := RedFlags.or_empty _
  rw [redTotal, hseen, List.sum_singleton]
  split
  · rfl
  · exact code_redFlags ‹_›

/-- What partials come to does not depend on their order. -/
theorem redTotal_perm (h : xs.Perm ys) : redTotal p xs = redTotal p ys := by
  rw [redTotal, redTotal, redSeen_perm h, h.sum_eq]

theorem redBounded_perm (h : xs.Perm ys) (hb : redBounded p xs) : redBounded p ys := by
  have hsum := ((h.filter (redFinite p)).map Int.natAbs).sum_eq
  unfold redBounded at *
  omega

theorem redBounded_append (h : redBounded p (xs ++ ys)) : redBounded p xs ∧ redBounded p ys := by
  unfold redBounded at *
  rw [List.filter_append, List.map_append, List.sum_append] at h
  omega

theorem natAbs_sum_le (l : List Int) : l.sum.natAbs ≤ (l.map Int.natAbs).sum := by
  simpa using Multiset.le_sum_of_subadditive Int.natAbs rfl.le Int.natAbs_add_le (l : Multiset Int)

variable (hp : 5 ≤ p)
include hp

/-- The total keeps of the flags what a code keeps. -/
theorem redFlags_redTotal (h : redBounded p xs) : redFlags p (redTotal p xs) = (redSeen p xs).top := by
  unfold redTotal
  split
  next hfin =>
    rw [redBounded, List.filter_eq_self.2 (redSeen_eq_empty.1 hfin)] at h
    rw [redFlags_small hp ((natAbs_sum_le xs).trans h), hfin]
    rfl
  next hcode => exact redFlags_code hp hcode

/-- Merging two totals gives the total of both: the shape of the tree does not matter. -/
theorem redMerge_redTotal (h : redBounded p (xs ++ ys)) :
    redMerge p (redTotal p xs) (redTotal p ys) = redTotal p (xs ++ ys) := by
  obtain ⟨hx, hy⟩ := redBounded_append h
  have hfinite {l : List Int} (hl : redBounded p l) : redFinite p (redTotal p l) = true ↔ redSeen p l = {} := by
    rw [redFinite_iff, redFlags_redTotal hp hl, RedFlags.top_eq_empty]
  have hboth : (redFinite p (redTotal p xs) && redFinite p (redTotal p ys)) = true ↔ redSeen p (xs ++ ys) = {} := by
    rw [Bool.and_eq_true, hfinite hx, hfinite hy, redSeen_append, RedFlags.or_eq_empty]
  rw [redMerge_eq, redFlags_redTotal hp hx, redFlags_redTotal hp hy, redTotal.eq_1 p (xs ++ ys)]
  by_cases hall : redSeen p (xs ++ ys) = {}
  case pos =>
    obtain ⟨hxs, hys⟩ := RedFlags.or_eq_empty .. |>.1 (redSeen_append ▸ hall)
    rw [if_pos (hboth.2 hall), if_pos hall, redTotal, redTotal, if_pos hxs, if_pos hys, List.sum_append]
  case neg =>
    rw [if_neg (mt hboth.1 hall), if_neg hall, redSeen_append, ← RedFlags.code_top, RedFlags.top_or_top, RedFlags.code_top]

/-- Partials merged one after another give their total. -/
theorem foldl_redMerge (h : redBounded p xs) : xs.foldl (redMerge p) 0 = redTotal p xs := by
  induction xs using List.reverseRecOn with
  | nil => rfl
  | append_singleton xs x ih =>
    calc (xs ++ [x]).foldl (redMerge p) 0
        = redMerge p (xs.foldl (redMerge p) 0) x := List.foldl_concat ..
      _ = redMerge p (redTotal p xs) (redTotal p [x]) := by rw [ih (redBounded_append h).1, redTotal_singleton]
      _ = redTotal p (xs ++ [x]) := redMerge_redTotal hp h

end

/-- Settles O57: a fold of merges is a total, which neither the order nor a split of the partials changes. -/
theorem reductionIsOrderFree : Obligations.ReductionIsOrderFree := by
  intro p xs ys zs hp hperm hbound merged
  have hb : redBounded p (xs ++ zs) := hbound
  obtain ⟨hxs, hzs⟩ := redBounded_append hb
  have hx : merged xs = redTotal p xs := foldl_redMerge hp hxs
  refine ⟨?order, ?shape, fun hfinite => ?finite⟩
  case order => rw [hx, redTotal_perm hperm]; exact (foldl_redMerge hp (redBounded_perm hperm hxs)).symm
  case shape =>
    have hz : merged zs = redTotal p zs := foldl_redMerge hp hzs
    have hxz : merged (xs ++ zs) = redTotal p (xs ++ zs) := foldl_redMerge hp hb
    rw [hx, hz, hxz, redMerge_redTotal hp hb]
  case finite => rw [hx, redTotal, if_pos (redSeen_eq_empty.2 hfinite)]

end Sys2Proof.Machine
end

section
/-! SUPPORT. How a TREE op starts (10 R231, R232; 18 R397). -/

namespace Sys2Proof.Machine

/-- A TREE of a kind starts: in crawl service it ends at once (18 R397). -/
theorem gives_startTree {i : Instr} {s : State} {p c tact : Nat} {e : QEntry} {k : Fabric → QEntry → Fabric}
    (hi : exec i s = s.run fun f => f.startTree p c tact k) (hs : startable s.fab p c e) (ho : opcOf e.op = ocTree)
    (ht : fld e.op 95 94 = tact) :
    let g := s.fab.begin (.tsq p c) e
    gives i s (if g.crawl then g.finish (.tsq p c) e.eid .unreachable (infoPort p 0) else k g e) := by
  have hhead : s.fab.head (.tsq p c) = some e := hs.2.2
  rw [gives, hi, State.run_eq, Fabric.startTree, hhead]
  simp only [ht, beq_self_eq_true, if_true]
  rw [Fabric.startOp_startable hs ho]

/-- Settles O4: each kind of TREE is started by its own command. -/
theorem treeOpsStart : Obligations.TreeOpsStart := by
  intro s p c e hs ho w g out
  refine ⟨fun ht => ?setUp, fun ht => ?join, fun ht => ?leave⟩
  case setUp => exact (gives_startTree (i := .treeSetUp p c) rfl hs ho ht :)
  case join => exact (gives_startTree (i := .treeJoin p c) rfl hs ho ht :)
  case leave => exact (gives_startTree (i := .treeLeave p c) rfl hs ho ht :)

end Sys2Proof.Machine
end

section
/-! SUPPORT. The hold timer of a buffer (10 R254), and the time that passes at the NIs until it expires (07 R180). -/

namespace Sys2Proof.Machine

/-- A buffer that has one contribution of two. -/
def heldBuffer : RduBuf := { tree := 0, seq := 0, anchorPass := false, entry := 0, merged := 1, hdr := {} }

/-- Stop 0 holds it, with the least hold time, while channel 0 of the Core NI at port 0 has an op; a cycle is one fc. -/
def heldBufferState : State :=
  { fab := {
      fmu := { cfg := { regs := [(0x80C, 0x80000000)] } }
      stops := [(0, { rdu := { bufs := [(0, heldBuffer)], tree := [(1, 0x20000), (3, 0x10000)] } })]
      nis := [(0, { tsq := { chans := [(0, { queue := [{ eid := 0, op := 0 }] })] } })] } }

/-- The hold time is 1,024 fc, which time has to reach for the timer to expire. -/
theorem heldBuffer_expires : NMap.find? (heldBufferState.fab.stopU 0).rdu.bufs 0 = some heldBuffer ∧
    heldBuffer.merged < twExpect (heldBufferState.fab.trw 0 heldBuffer.entry 1) ∧
    heldBufferState.fab.due (heldBuffer.openedAt +
      twHtmo (heldBufferState.fab.trw 0 heldBuffer.entry 3) * 1024 * heldBufferState.fab.unit) = true := by
  decide +kernel

/-- The channel accounts for the 1,024 cycles that pass (07 R180). -/
theorem rduHoldTimeout_accounts {g : Fabric} (hg : gives (.rduHoldTimeout 0 0) heldBufferState g) :
    (g.ni 0).tsq.acc.get 0 0 = 1024 := by
  have h : gives (.rduHoldTimeout 0 0) heldBufferState _ := rfl
  rw [hg.unique h]
  decide +kernel

/-- Refutes O48: its last clause has no NI change, but the expiry of a hold timer is reached by cycles that pass in
the data plane, and an NI accounts for each of them. -/
theorem not_rduCommands : ¬ Obligations.RduCommands := by
  intro h
  obtain ⟨hbuf, hwaits, hdue⟩ := heldBuffer_expires
  obtain ⟨g, hg, -, -, hnis⟩ := (h heldBufferState 0 rfl (by decide)).2 0 heldBuffer hbuf hwaits hdue
  have hnone : (g.ni 0).tsq.acc.get 0 0 = 0 := by
    rw [Fabric.ni, hnis]
    decide +kernel
  exact absurd ((rduHoldTimeout_accounts hg).symm.trans hnone) (by decide)

end Sys2Proof.Machine
end

section
/-! SUPPORT. Requests for trees at a die slice, and what comes of them (10 R231, R232; log entry 138). -/

namespace Sys2Proof.Machine

/-! ## A request at the slice (10 R231, R232) -/

/-- A request of a slice's tree unit, as far as its header says. -/
def treeLegal (r : Packet) : Bool := r.hdr.kind == 1 && fld r.hdr.addr 47 40 == 0xFD && kindLegal r.hdr

/-- What the slice makes of the request that it takes. -/
def Fabric.takeTreeRequest (f : Fabric) (d : Nat) (r : Packet) : Fabric :=
  if treeLegal r && treeAct r == 0 && r.hdr.bcnt == 64 && lengthsLegal r.hdr then f.treeSetUpReq d r
  else if treeLegal r && (treeAct r == 1 || treeAct r == 2) && r.hdr.bcnt == 0 && r.hdr.len == 1 then
    f.treeChangeReq d r (treeAct r == 1)
  else f.niRefuse (slicePort d) r.hdr .malformed

section
variable {s : State} {d : Nat} {q : QPkt} {g : Fabric}

theorem gives_treeRequest (hm : s.fab.moving = true) (hd : d < nDies s.fab.variant) (hr : hasRdu s.fab.variant = true)
    (h : delivers s.fab (slicePort d)
      (fun x => (x.hdr.kind == 0 || x.hdr.kind == 1) && !(slicePort d == fmuPort && x.hdr.kind == 0)) q g) :
    gives (.treeRequest d) s (g.takeTreeRequest d q.packet) :=
  gives_niTake (c := .treeRequest d) (b := fun f => f.moving && d < nDies f.variant && hasRdu f.variant)
    (k := fun f r _ => f.takeTreeRequest d r) rfl (by simp [hm, hd, hr]) h

end

section
variable {f : Fabric} {d : Nat} {r : Packet}

theorem Fabric.takeTreeRequest_setUp (hr : treeLegal r = true) (ha : treeAct r = 0) (hb : r.hdr.bcnt = 64)
    (hl : lengthsLegal r.hdr = true) : f.takeTreeRequest d r = f.treeSetUpReq d r := by
  simp [Fabric.takeTreeRequest, hr, ha, hb, hl]

theorem Fabric.takeTreeRequest_change (hr : treeLegal r = true) (ha : treeAct r = 1 ∨ treeAct r = 2)
    (hb : r.hdr.bcnt = 0) (hl : r.hdr.len = 1) : f.takeTreeRequest d r = f.treeChangeReq d r (treeAct r == 1) := by
  rcases ha with ha | ha <;> simp [Fabric.takeTreeRequest, hr, ha, hb, hl]

theorem Fabric.takeTreeRequest_other (hr : treeLegal r = false) :
    f.takeTreeRequest d r = f.niRefuse (slicePort d) r.hdr .malformed := by
  simp [Fabric.takeTreeRequest, hr]

/-- A set-up of a tree that no slice has heard of, and that passes every check, is ordered at its stops. -/
theorem Fabric.treeSetUpReq_ordered {t : TreeRec}
    (ht : t = { owner := fld r.hdr.src 9 0, desc := BitVec.ofNat 512 (ofBytesLE r.body)
                members := tdMembers (BitVec.ofNat 512 (ofBytesLE r.body)) })
    (hstops : ∀ b ∈ bitsSet 256 (tdMask t.desc), b < nStops f.variant) (hnew : (f.die d).recs.find? (treeId r) = none)
    (hfree : ∀ x ∈ f.dies, ∀ y ∈ x.2.trees, treeId y.req ≠ treeId r)
    (hcheck : f.treeCheck t (treeId r) r.hdr.domain.toNat false = none) :
    f.treeSetUpReq d r = f.treeOrder d r ((treeStops t ((f.treeLinks t).getD [])).map fun x =>
      (x, f.treeWords t ((f.treeLinks t).getD []) x)) (some t) := by
  subst ht
  have hmask : ((bitsSet 256 (tdMask (BitVec.ofNat 512 (ofBytesLE r.body)))).any (· ≥ nStops f.variant)) = false := by
    simpa using hstops
  have hbusy : (f.dies.any fun x => x.2.trees.any fun q => treeId q.req == treeId r) = false := by
    simpa using hfree
  rw [Fabric.treeSetUpReq]
  simp only [hmask, hnew, hbusy, Option.isSome_none, Bool.or_self, Bool.false_eq_true, if_false, hcheck]

/-- A change of a tree that the slice knows freezes the tree. -/
theorem Fabric.treeChangeReq_frozen {t : TreeRec} {join : Bool} (ht : (f.die d).recs.find? (treeId r) = some t)
    (hc : t.notChanged join (fld r.hdr.src 9 0) = false) :
    f.treeChangeReq d r join = (f.markTree (treeId r) 28 true).updDie d fun x =>
      { x with trees := x.trees ++ [{ req := r, freeze := true }] } := by
  rw [Fabric.treeChangeReq, ht]
  simp only [hc, Bool.false_eq_true, if_false]

end

/-! ## The change of a frozen tree (10 R232) -/

/-- The owner's leave, which tears the tree down, is none of the changes that change nothing. -/
theorem TreeRec.notChanged_of_changed_none {t : TreeRec} {join : Bool} {p : Nat} (h : t.changed join p = none) :
    t.notChanged join p = false := by
  cases join
  case true => simp [TreeRec.changed] at h
  case false =>
    have hp : p = t.owner := by simpa [TreeRec.changed] using h
    simp [TreeRec.notChanged, hp]

section
variable {s : State} {d : Nat} {q : TreeReq} {rest : List TreeReq} {t : TreeRec} (hm : s.fab.moving = true)
  (hd : d < nDies s.fab.variant)
  (hq : takeFirst (fun x => x.freeze && s.fab.treeIdle (treeId x.req) && !s.fab.treeBusy (treeId x.req)) (s.fab.die d).trees =
    some (q, rest))
  (ht : (s.fab.die d).recs.find? (treeId q.req) = some t)
  (hc : t.notChanged (treeAct q.req == 1) (fld q.req.hdr.src 9 0) = false)
include hm hd hq ht hc

/-- A frozen tree whose owner leaves is torn down. -/
theorem treeFreezeApply_tearsDown (hnone : t.changed (treeAct q.req == 1) (fld q.req.hdr.src 9 0) = none) :
    gives (.treeFreezeApply d) s (((s.fab.updDie d fun x => { x with trees := rest }).tearDown (treeId q.req)).treeAnswer d
      q.req .ok none) := by
  have h := gives_when (c := .treeFreezeApply d) (s := s) (b := fun f => f.moving && d < nDies f.variant) rfl
    (by simp [hm, hd])
  simpa only [hq, ht, hc, hnone, Bool.false_eq_true, if_false] using h

/-- A change that passes the checks is ordered at the tree's stops, and those that leave it clear their entries. -/
theorem treeFreezeApply_ordered {t2 : TreeRec}
    (hsome : t.changed (treeAct q.req == 1) (fld q.req.hdr.src 9 0) = some t2)
    (hcheck : (s.fab.updDie d fun x => { x with trees := rest }).treeCheck t2 (treeId q.req) q.req.hdr.domain.toNat true =
      none) :
    let f1 := s.fab.updDie d fun x => { x with trees := rest }
    let ls := (f1.treeLinks t2).getD []
    let stops := treeStops t2 ls
    let gone := f1.stopIds.filter fun x => (f1.treeAt x (treeId q.req)).isSome && !stops.contains x
    gives (.treeFreezeApply d) s (f1.treeOrder d q.req
      ((stops.map fun x => (x, f1.treeWords t2 ls x)) ++ gone.map fun x => (x, [])) (some t2)) := by
  have h := gives_when (c := .treeFreezeApply d) (s := s) (b := fun f => f.moving && d < nDies f.variant) rfl
    (by simp [hm, hd])
  simpa only [hq, ht, hc, hsome, hcheck, Bool.false_eq_true, if_false] using h

end

/-! ## Confirmations (10 R231; log entry 138) -/

/-- The orders by which the slice of a die has a stop write its entry of a tree. -/
def isTreeOrder (d st : Nat) (x : UnitId × Order) : Bool :=
  match x.2 with
  | .tree a b _ => a == d && b == st
  | _ => false

/-- The record that a request leaves once every stop has confirmed. -/
def Fabric.recordResult (f : Fabric) (q : TreeReq) : Fabric :=
  match q.result with
  | some t =>
    if treeAct q.req == 0 then (f.recordTree (treeId q.req) t).compareGuard t else f.recordTree (treeId q.req) t
  | none => f

section
variable {f : Fabric} {q : TreeReq} {t : TreeRec}

theorem Fabric.recordResult_none (h : q.result = none) : f.recordResult q = f := by
  rw [Fabric.recordResult, h]

theorem Fabric.recordResult_setUp (h : q.result = some t) (ha : treeAct q.req = 0) :
    f.recordResult q = (f.recordTree (treeId q.req) t).compareGuard t := by
  simp [Fabric.recordResult, h, ha]

theorem Fabric.recordResult_changed (h : q.result = some t) (ha : treeAct q.req ≠ 0) :
    f.recordResult q = f.recordTree (treeId q.req) t := by
  simp [Fabric.recordResult, h, ha]

end

/-- What follows a stop's confirmation of a request: the last one has it answered, and it waits after any other. -/
def Fabric.treeConfirmed (f : Fabric) (d st : Nat) (q : TreeReq) (others : List TreeReq) : Fabric :=
  let g := f.updDie d fun x => { x with trees := others }
  if (q.confirm.erase st).isEmpty then
    if q.words.all fun w => w.2.isEmpty || (g.grantOf w.1 (treeId q.req)).isSome then
      ((g.recordResult q).refreeze (treeId q.req)).treeAnswer d q.req .ok none
    else (g.tearDown (treeId q.req)).treeAnswer d q.req .unreachable none
  else f.updDie d fun x => { x with
    trees := x.trees.map fun y => if y == q then { y with confirm := q.confirm.erase st } else y }

/-- A stop that holds a grant of the tree writes its entry and confirms. -/
theorem gives_treeRduConfirm {s : State} {d st : Nat} {u : UnitId} {ws : List Word} {rest : List (UnitId × Order)}
    {q : TreeReq} {others : List TreeReq} {e dom : Nat} (hm : s.fab.moving = true) (hst : st < nStops s.fab.variant)
    (ho : takeFirst (isTreeOrder d st) s.fab.fmu.road.orders = some ((u, .tree d st ws), rest))
    (hq : takeFirst (fun x : TreeReq => x.confirm.contains st) (s.fab.die d).trees = some (q, others))
    (hg : (s.fab.updFmu fun m => { m with road := { m.road with orders := rest } }).grantOf st (treeId q.req) = some (e, dom)) :
    gives (.treeRduConfirm d st) s
      (((s.fab.updFmu fun m => { m with road := { m.road with orders := rest } }).setTreeWords st e ws).treeConfirmed d st q
        others) := by
  have h := gives_when (c := .treeRduConfirm d st) (s := s) (b := fun f => f.moving && st < nStops f.variant) rfl
    (by simp [hm, hst])
  dsimp only at h
  split at h
  next hnone => cases ho.symm.trans hnone
  next hsome =>
    cases ho.symm.trans hsome
    simp only [Fabric.updFmu_die, hq, hg] at h
    exact h

section
variable {f : Fabric} {d st : Nat} {q : TreeReq} {others : List TreeReq}

theorem Fabric.treeConfirmed_waiting (hleft : q.confirm.erase st ≠ []) :
    f.treeConfirmed d st q others = f.updDie d fun x => { x with
      trees := x.trees.map fun y => if y == q then { y with confirm := q.confirm.erase st } else y } :=
  if_neg (mt List.isEmpty_iff.1 hleft)

/-- The last confirmation: every stop whose entry is kept still has its grant. -/
theorem Fabric.treeConfirmed_last (hlast : q.confirm.erase st = []) (hkept : (q.words.all fun w => w.2.isEmpty ||
      ((f.updDie d fun x => { x with trees := others }).grantOf w.1 (treeId q.req)).isSome) = true) :
    f.treeConfirmed d st q others = (((f.updDie d fun x => { x with trees := others }).recordResult q).refreeze
      (treeId q.req)).treeAnswer d q.req .ok none :=
  (if_pos (List.isEmpty_iff.2 hlast)).trans (if_pos hkept)

end

/-! ## The obligation, command by command -/

/-- The three outcomes of a request: a set-up, a change, or a refusal. -/
theorem treeRequest_outcomes {s : State} {d : Nat} {q : QPkt} {g : Fabric}
    (h : gives (.treeRequest d) s (g.takeTreeRequest d q.packet)) :
    let r := q.packet
    (treeLegal r = true → treeAct r = 0 → r.hdr.bcnt = 64 → lengthsLegal r.hdr = true →
      gives (.treeRequest d) s (g.treeSetUpReq d r)) ∧
    (treeLegal r = true → r.hdr.bcnt = 0 → r.hdr.len = 1 → treeAct r = 1 ∨ treeAct r = 2 →
      gives (.treeRequest d) s (g.treeChangeReq d r (treeAct r == 1))) ∧
    (treeLegal r = false → gives (.treeRequest d) s (g.niRefuse (slicePort d) r.hdr .malformed)) := by
  refine ⟨fun hr ha hb hl => ?setUp, fun hr hb hl ha => ?change, fun hr => ?other⟩
  case setUp => rwa [Fabric.takeTreeRequest_setUp hr ha hb hl] at h
  case change => rwa [Fabric.takeTreeRequest_change hr ha hb hl] at h
  case other => rwa [Fabric.takeTreeRequest_other hr] at h

/-- Settles O49, command by command (log entry 138). -/
theorem treeCommands : Obligations.TreeCommands := by
  refine ⟨?request, ?freeze, ?confirm⟩
  case request =>
    intro s d q g hm hd hr p hdel r ok
    obtain ⟨hsetUp, hchange, hother⟩ := treeRequest_outcomes (gives_treeRequest hm hd hr hdel)
    refine ⟨hsetUp, fun hok hb hl ha => ?join, fun hok hb hl ha => ?leave,
      fun t hok ha hb hl ht hstops hnew hfree hcheck => ?ordered, fun t hok hb hl ha ht hc => ?frozen, hother⟩
    case join => have h := hchange hok hb hl (.inl ha); rwa [ha] at h
    case leave => have h := hchange hok hb hl (.inr ha); rwa [ha] at h
    case ordered =>
      have h := hsetUp hok ha hb hl
      rw [Fabric.treeSetUpReq_ordered ht hstops hnew hfree hcheck] at h
      exact h
    case frozen => exact Fabric.treeChangeReq_frozen ht hc ▸ hchange hok hb hl ha
  case freeze =>
    intro s d q rest t hm hd hq ht f1 tree
    refine ⟨fun hnone => ?tornDown, fun t2 hc hsome hcheck => treeFreezeApply_ordered hm hd hq ht hc hsome hcheck⟩
    exact treeFreezeApply_tearsDown hm hd hq ht (TreeRec.notChanged_of_changed_none hnone) hnone
  case confirm =>
    intro s d st u ws rest q others e dom hm hst ho f1 hq hg f2 f3
    have h := gives_treeRduConfirm hm hst ho hq hg
    refine ⟨fun hleft => ?waits, fun hlast hkept => ?answered⟩
    case waits => rwa [Fabric.treeConfirmed_waiting hleft] at h
    case answered =>
      rw [Fabric.treeConfirmed_last hlast hkept] at h
      refine ⟨fun hnone => ?none, fun t hsome ha => ?setUp, fun t hsome ha => ?changed⟩
      case none => rwa [Fabric.recordResult_none hnone] at h
      case setUp => rwa [Fabric.recordResult_setUp hsome ha] at h
      case changed => rwa [Fabric.recordResult_changed hsome ha] at h

end Sys2Proof.Machine
end

section
/-! SUPPORT. The reset of the fabric: what it clears, what the latch shows while it is held, and when it ends
(18 R389, R390, R402, R403). -/

namespace Sys2Proof.Machine

section
variable (f : Fabric)

@[simp] theorem Fabric.updBoot_die (g : Boot → Boot) (d : Nat) : (f.updBoot g).die d = f.die d := rfl

/-- What reset leaves of a die slice: whether its PLL is locked. -/
theorem Fabric.resetAll_die (d : Nat) : f.resetAll.die d = { ({} : DieSlice) with pllLocked := (f.die d).pllLocked } :=
  NMap.get_mapAll f.dies (fun _ x => { ({} : DieSlice) with pllLocked := x.pllLocked }) d rfl

theorem Fabric.resetAll_pllsLocked : f.resetAll.pllsLocked = f.pllsLocked := by
  simp only [Fabric.pllsLocked, Fabric.resetAll_die]
  rfl

/-- What the status latch shows of steps 1-3 (18 R402, R403). -/
def Fabric.shownStep (f : Fabric) : BitVec 4 :=
  if f.boot.latch == 0xF || f.boot.fail then f.boot.latch else if !f.railsGood then 1 else if !f.pllsLocked then 2 else 3

theorem Fabric.track_eq : f.track = f.updBoot fun b => { b with latch := f.shownStep } := by
  unfold Fabric.track Fabric.shownStep
  split <;> rfl

end

section
variable {f : Fabric}

/-- The conditions for the end of reset (18 R390, R402). -/
theorem Fabric.tryRelease_released (hreset : f.boot.inReset = true) (hpin : f.boot.rstN = true) (hrails : f.railsGood = true)
    (hplls : f.pllsLocked = true) (hlatch : f.boot.latch ≠ 15) : f.tryRelease = f.updBoot fun b => { b with
      inReset := false, latch := if b.fail then b.latch else 4, lastFail := b.lost, lost := false } :=
  if_pos (by rw [hreset, hpin, hrails, hplls, bne_iff_ne.mpr hlatch]; rfl)

theorem Fabric.tryRelease_held (h : f.boot.rstN = false ∨ f.railsGood = false ∨ f.pllsLocked = false ∨ f.boot.latch = 15) :
    f.tryRelease = f := by
  refine if_neg fun hall => ?_
  simp only [Bool.and_eq_true, bne_iff_ne] at hall
  obtain ⟨⟨⟨⟨-, hpin⟩, hrails⟩, hplls⟩, hlatch⟩ := hall
  rcases h with h | h | h | h
  · simp [h] at hpin
  · simp [h] at hrails
  · simp [h] at hplls
  · exact hlatch h

/-- What the end of reset may change is the boot state alone. -/
theorem Fabric.tryRelease_boot (f : Fabric) : ∃ b, f.tryRelease = { f with boot := b } := by
  unfold Fabric.tryRelease
  split
  · exact ⟨_, rfl⟩
  · exact ⟨f.boot, rfl⟩

theorem Fabric.tryRelease_nis (f : Fabric) : f.tryRelease.nis = f.nis := by
  obtain ⟨b, h⟩ := f.tryRelease_boot
  rw [h]

theorem Fabric.tryRelease_die (f : Fabric) (d : Nat) : f.tryRelease.die d = f.die d := by
  obtain ⟨b, h⟩ := f.tryRelease_boot
  rw [h]
  rfl

end

/-! ## What each command of the pins and clocks does -/

section
variable (s : State)

theorem gives_fabRstAssert : gives .fabRstAssert s
    (s.fab.resetAll.updBoot fun b => { b with rstN := false, latch := 1, fail := false }).track := rfl

theorem gives_fabRstRelease : gives .fabRstRelease s (s.fab.updBoot fun b => { b with rstN := true }).tryRelease := rfl

end

section
variable {s : State} {d : Nat} (hd : d < nDies s.fab.variant)
include hd

theorem gives_fabPgChange_high : gives (.fabPgChange d true) s
    (((s.fab.updBoot fun b => { b with pg := b.pg ||| BitVec.ofNat 4 (2 ^ d) }).when s.fab.boot.inReset
      Fabric.track).tryRelease) :=
  gives_when (c := .fabPgChange d true) (b := fun f => d < nDies f.variant) rfl (by simp [hd])

theorem gives_fabPgChange_low : gives (.fabPgChange d false) s
    (((s.fab.resetAll.updBoot fun b => { b with pg := b.pg &&& ~~~(BitVec.ofNat 4 (2 ^ d)) }).updDie d
      fun x => { x with pllLocked := false }).track) :=
  gives_when (c := .fabPgChange d false) (b := fun f => d < nDies f.variant) rfl (by simp [hd])

theorem gives_pllLock (hr : s.fab.boot.inReset = true) (hg : s.fab.railsGood = true) : gives (.pllLock d) s
    (((s.fab.updDie d fun x => { x with pllLocked := true }).track).tryRelease) :=
  gives_when (c := .pllLock d) (b := fun f => d < nDies f.variant && f.boot.inReset && f.railsGood) rfl (by simp [hd, hr, hg])

theorem gives_pllLockTimeout (hr : s.fab.boot.inReset = true) (hg : s.fab.railsGood = true)
    (hp : (s.fab.die d).pllLocked = false) (hl : s.fab.boot.latch = 2) : gives (.pllLockTimeout d) s (s.fab.bootStop 0x01 d 0) :=
  gives_when (c := .pllLockTimeout d) (s := s)
    (b := fun f => d < nDies f.variant && f.boot.inReset && f.railsGood && !(f.die d).pllLocked && f.boot.latch == 2) rfl
    (by simp [hd, hr, hg, hp, hl])

theorem gives_pllUnlock : gives (.pllUnlock d) s
    (if s.fab.boot.inReset then (s.fab.updDie d fun x => { x with pllLocked := false }).track
      else (s.fab.resetAll.updDie d fun x => { x with pllLocked := false }).updBoot
        fun b => { b with latch := 0xF, fail := true, lost := true }) :=
  gives_when (c := .pllUnlock d) (b := fun f => d < nDies f.variant) rfl (by simp [hd])

end

/-- Settles O28: the two commands that begin a reset, over what reset itself leaves. -/
theorem resetClearsTheFabric : Obligations.ResetClearsTheFabric := by
  refine ⟨fun f => ⟨rfl, rfl, rfl, rfl, rfl, rfl, rfl, rfl, rfl, rfl, rfl, rfl, f.resetAll_die⟩, fun s => ?pin, fun s d hd => ?rails⟩
  case pin =>
    refine (gives_fabRstAssert s).answers ?_
    rw [Fabric.track_eq]
    refine ⟨rfl, rfl, rfl, rfl, rfl, rfl, rfl, ?latch⟩
    have hplls : Fabric.pllsLocked (s.fab.resetAll.updBoot fun b => { b with rstN := false, latch := 1, fail := false }) =
      s.fab.pllsLocked := s.fab.resetAll_pllsLocked
    have hrails : Fabric.railsGood (s.fab.resetAll.updBoot fun b => { b with rstN := false, latch := 1, fail := false }) =
      (s.fab.boot.pg == 15) := rfl
    simp only [Fabric.updBoot_boot, Fabric.shownStep, hplls, hrails]
    cases s.fab.pllsLocked <;> simp
  case rails =>
    refine (gives_fabPgChange_low hd).answers ?_
    rw [Fabric.track_eq]
    exact ⟨rfl, rfl, rfl, rfl, rfl, by simp, rfl⟩

/-- Settles O29: reset ends where every condition of R390 holds, and a lost clock begins it anew. -/
theorem clocksAndRelease : Obligations.ClocksAndRelease := by
  refine ⟨fun s => ⟨fun hr hg hp hl => ?released, fun h => ?held⟩, fun s d hd hr hg => ?lock, fun s d hd hr hg hp hl => ?timeout,
    fun s d hd hr => ?unlockRunning, fun s d hd hr => ?unlockReset, fun s d hd hr hn => ?rails⟩
  case released =>
    have h := gives_fabRstRelease s
    rw [Fabric.tryRelease_released (by exact hr) rfl (by exact hg) (by exact hp) (by exact hl)] at h
    exact h.answers ⟨rfl, rfl, rfl, rfl, rfl, rfl⟩
  case held =>
    have hk := gives_fabRstRelease s
    rw [Fabric.tryRelease_held (by exact .inr h)] at hk
    exact hk.answers ⟨rfl, rfl, rfl⟩
  case lock =>
    refine (gives_pllLock hd hr hg).answers ⟨?_, fun hn => ?_, ?_⟩
    · simp [Fabric.tryRelease_die, Fabric.track_eq]
    · rw [Fabric.track_eq, Fabric.tryRelease_held (by exact .inl hn)]
      exact hr
    · rw [Fabric.tryRelease_nis, Fabric.track_eq]
      rfl
  case timeout => exact (gives_pllLockTimeout hd hr hg hp hl).answers ⟨rfl, rfl, rfl, hl, hr⟩
  case unlockRunning =>
    have h := gives_pllUnlock hd
    rw [hr] at h
    exact h.answers ⟨rfl, rfl, rfl, by simp, rfl, rfl, rfl, rfl⟩
  case unlockReset =>
    have h := gives_pllUnlock hd
    rw [hr, if_pos rfl, Fabric.track_eq] at h
    exact h.answers ⟨hr, by simp, rfl⟩
  case rails =>
    have h := gives_fabPgChange_high hd
    rw [hr, Fabric.when_true, Fabric.track_eq, Fabric.tryRelease_held (.inl (by exact hn))] at h
    exact h.answers ⟨hr, rfl, rfl⟩

end Sys2Proof.Machine
end

section
/-! SUPPORT. What acts neither while the package is stopped nor in reset (16 R368; 18 R389; 20 R427). -/

namespace Sys2Proof.Machine

/-- An effect that leaves the fabric alone leaves the state alone. -/
theorem gives.stands {c : Instr} {s : State} {g : Fabric} (h : gives c s g) (hg : g = s.fab) : exec c s = .next s := by
  rw [h, hg]

section
variable {f : Fabric}

theorem Fabric.moving_of_not_live (h : f.live = false) : f.moving = false := by simp [Fabric.moving, h]

theorem Fabric.seqLive_not_live (h : f.live = false) (w : Seqr) : f.seqLive w = false := by
  cases w <;> simp [Fabric.seqLive, Fabric.moving_of_not_live, h]

/-- An op starts at a unit that can act. -/
theorem Fabric.startOp_not_live {w : Seqr} (h : f.seqLive w = false) (oc : Nat) (k : Fabric → QEntry → Fabric) :
    f.startOp w oc k = f := Fabric.when_not _ h

theorem Fabric.startLdd_not_live {w : Seqr} (h : f.seqLive w = false) (kind : Nat) (k : Fabric → QEntry → Fabric) :
    f.startLdd w kind k = f := by
  unfold Fabric.startLdd
  split
  · rw [Fabric.startOp_not_live h, ite_self]
  · rfl

theorem Fabric.startTree_not_live {p c : Nat} (h : f.seqLive (.tsq p c) = false) (tact : Nat)
    (k : Fabric → QEntry → Fabric) : f.startTree p c tact k = f := by
  unfold Fabric.startTree
  split
  · rw [Fabric.startOp_not_live h, ite_self]
  · rfl

/-! ## Stopped, or in reset -/

section
variable (h : f.moving = false)
include h

theorem Fabric.seqLive_tsq_standing (p c : Nat) : f.seqLive (.tsq p c) = false := by simp [Fabric.seqLive, h]

theorem Fabric.startMgmt_standing (oc : Nat) (k : Fabric → QEntry → Fabric) : f.startMgmt oc k = f := Fabric.when_not _ h

theorem Fabric.startAlone_standing (oc : Nat) (k : Fabric → QEntry → Fabric) : f.startAlone oc k = f := by
  simp only [Fabric.startAlone, Fabric.when, Fabric.startMgmt_standing h, ite_self]

theorem Fabric.startFence_standing (dom on : Bool) (k : Fabric → QEntry → Fabric) : f.startFence dom on k = f := by
  unfold Fabric.startFence
  split
  · rw [Fabric.startMgmt_standing h, ite_self]
  · rfl

theorem Fabric.fencePortOp_standing (on : Bool) : f.fencePortOp on = f := Fabric.startFence_standing h ..
theorem Fabric.fenceDomOp_standing (on : Bool) : f.fenceDomOp on = f := Fabric.startFence_standing h ..

theorem Fabric.powerOp_standing (on : Bool) : f.powerOp on = f := by
  unfold Fabric.powerOp
  split
  · rfl
  · rw [Fabric.startMgmt_standing h, ite_self]

end

/-! ## In reset -/

section
variable (h : f.live = false)
include h

theorem Fabric.spareOp_not_live (kind : Nat) (bypass : Option Bool) : f.spareOp kind bypass = f := by
  unfold Fabric.spareOp
  split
  · rfl
  · simp only [Fabric.startOp_not_live (Fabric.seqLive_not_live h .fmu), ite_self]

theorem Fabric.snapOp_not_live (stop : Bool) : f.snapOp stop = f := by
  unfold Fabric.snapOp
  split
  · rfl
  · rw [Fabric.startOp_not_live (Fabric.seqLive_not_live h .fmu), ite_self]

/-- Every access is refused and recorded nowhere (20 R427). -/
theorem Fabric.onBus_not_live (ok : Bool) (g : Fabric → Fabric) : f.onBus ok g = f.busReply 0 true := by
  simp [Fabric.onBus, h]
theorem Fabric.busAccess_not_live (a : Nat) (w : Option Word) : f.busAccess a w = f.busReply 0 true := by
  simp [Fabric.busAccess, h]

end

end

/-- Settles O58: every such command acts under a condition that fails while the package does not move. -/
theorem dataPlaneStands : Obligations.DataPlaneStands := by
  intro c s hc hm
  have hw := Fabric.seqLive_tsq_standing hm
  cases c <;> cases hc
  all_goals refine gives.stands rfl ?_
  all_goals simp [Fabric.when, hm, hw, Fabric.startOp_not_live, Fabric.startLdd_not_live, Fabric.startTree_not_live,
    Fabric.startMgmt_standing, Fabric.startAlone_standing, Fabric.fencePortOp_standing, Fabric.fenceDomOp_standing,
    Fabric.powerOp_standing]

end Sys2Proof.Machine
end

section
/-! SUPPORT. Reset as it is held: what every command does there (18 R389, R402; 20 R427). -/

namespace Sys2Proof.Machine

/-- The commands that act on the package's pins and clocks, which reset does not stop (18 R389, R390, R402). -/
def actsOnReset (c : Instr) : Bool :=
  match c with
  | .fabPgChange _ _ | .fabRstAssert | .fabRstRelease | .pllLock _ | .pllLockTimeout _ | .pllUnlock _ => true
  | _ => false

/-- The fabric but for what the last access on the management bus replied. -/
def Fabric.offBus (f : Fabric) : Fabric := { f with bus := {} }

theorem Fabric.eq_of_offBus {f g : Fabric} (h : f.offBus = g.offBus) : f = { g with bus := f.bus } :=
  congrArg (fun x : Fabric => { x with bus := f.bus }) h

theorem Fabric.busReply_offBus (f : Fabric) (w : Word) (err : Bool) : (f.busReply w err).offBus = f.offBus := rfl

theorem gives.inReset {c : Instr} {s : State} {g : Fabric} (h : gives c s g) (hg : g.offBus = s.fab.offBus) :
    ∃ b, gives c s { s.fab with bus := b } := ⟨g.bus, Fabric.eq_of_offBus hg ▸ h⟩

/-- In reset every other command leaves all but the reply of the bus as it is. -/
theorem exec_inReset {c : Instr} {s : State} (hc : actsOnReset c = false) (hr : s.fab.boot.inReset = true) :
    ∃ b, gives c s { s.fab with bus := b } := by
  have hl : s.fab.live = false := by simp [Fabric.live, hr]
  have hm := Fabric.moving_of_not_live hl
  have hw := Fabric.seqLive_not_live hl
  cases c <;> cases hc
  all_goals refine gives.inReset rfl ?_
  all_goals simp [Fabric.when, hl, hm, hw, Fabric.startOp_not_live, Fabric.startLdd_not_live, Fabric.startTree_not_live,
    Fabric.startMgmt_standing, Fabric.startAlone_standing, Fabric.fencePortOp_standing, Fabric.fenceDomOp_standing,
    Fabric.powerOp_standing, Fabric.spareOp_not_live, Fabric.snapOp_not_live, Fabric.onBus_not_live,
    Fabric.busAccess_not_live, Fabric.busReply_offBus, apply_ite Fabric.offBus]
  case busAccessTimeout.refl => split <;> rfl

/-- Settles O31: each of these is an access that the bus itself refuses. -/
theorem accessesInReset : Obligations.AccessesInReset := by
  intro s hr no
  have hl : s.fab.live = false := by simp [Fabric.live, hr]
  have refused {c : Instr} {g : Fabric} (hc : gives c s g) (hg : g = s.fab.busReply 0 true) : no c := by
    rw [hg] at hc
    exact hc
  have onBus (ok : Bool) (g : Fabric → Fabric) := Fabric.onBus_not_live hl ok g
  have named (b : Bool) (a : Nat) (w : Option Word) (hb : b = true) :
      (s.fab.when b fun f => f.busAccess a w) = s.fab.busReply 0 true := by
    rw [Fabric.when_of _ hb, Fabric.busAccess_not_live hl]
  exact ⟨fun a w => refused rfl (Fabric.busAccess_not_live hl ..), refused rfl (Fabric.busAccess_not_live hl ..),
    refused rfl (if_neg (by simp [hl])), fun u w hu => refused rfl (named _ _ _ hu), fun a ha => refused rfl (named _ _ _ ha),
    fun a ha => refused rfl (named _ _ _ ha), fun w => refused rfl (onBus ..), fun u w => refused rfl (onBus ..),
    refused rfl (onBus ..), refused rfl (onBus ..), refused rfl (onBus ..), fun d w => refused rfl (onBus ..),
    fun d => refused rfl (onBus ..), refused rfl (onBus ..), refused rfl (onBus ..), refused rfl (onBus ..),
    refused rfl (onBus ..), refused rfl (onBus ..), refused rfl (onBus ..), refused rfl (onBus ..), refused rfl (onBus ..),
    refused rfl (onBus ..), refused rfl (onBus ..), refused rfl (onBus ..)⟩

/-! ## The held reset -/

/-- Every unit at its reset value, in a fabric whose FAB_RST_N is low. -/
def Fabric.heldInReset (f : Fabric) : Prop :=
  f.boot.inReset = true ∧ f.boot.rstN = false ∧ f.nis = [] ∧ f.stops = [] ∧ f.fmu = {} ∧ f.time = {} ∧ f.taux = {} ∧
  f.snap = none ∧ f.frz = none ∧ ∀ d, { f.die d with pllLocked := false } = { ({} : DieSlice) with pllLocked := false }

theorem heldInReset_iff {s : State} : heldInReset s ↔ s.fab.heldInReset ∧ Instr.fabRstRelease ∉ s.pending := by
  simp only [heldInReset, Fabric.heldInReset, and_assoc]

theorem Fabric.heldInReset.not_live {f : Fabric} (h : f.heldInReset) : f.live = false := by
  obtain ⟨hr, -⟩ := h
  simp [Fabric.live, hr]

section
variable {f : Fabric} (h : f.heldInReset)
include h

theorem Fabric.heldInReset.updBoot {g : Boot → Boot} (hr : (g f.boot).inReset = f.boot.inReset)
    (hn : (g f.boot).rstN = f.boot.rstN) : (f.updBoot g).heldInReset := by
  obtain ⟨hreset, hpin, hunits⟩ := h
  exact ⟨hr.trans hreset, hn.trans hpin, hunits⟩

theorem Fabric.heldInReset.track : f.track.heldInReset := by
  rw [Fabric.track_eq]
  exact h.updBoot rfl rfl

theorem Fabric.heldInReset.tryRelease : f.tryRelease.heldInReset := by
  have ⟨_, hpin, _⟩ := h
  rwa [Fabric.tryRelease_held (.inl hpin)]

/-- A PLL may lock and lose its lock while reset is held. -/
theorem Fabric.heldInReset.pll (d : Nat) (on : Bool) : (f.updDie d fun x => { x with pllLocked := on }).heldInReset := by
  obtain ⟨hreset, hpin, hnis, hstops, hfmu, htime, htaux, hsnap, hfrz, hdies⟩ := h
  refine ⟨hreset, hpin, hnis, hstops, hfmu, htime, htaux, hsnap, hfrz, fun e => ?_⟩
  rcases Decidable.em (e = d) with rfl | hne
  · rw [Fabric.updDie_die_self]
    exact hdies e
  · rw [Fabric.updDie_die_ne _ _ hne]
    exact hdies e

end

/-- Reset itself brings every unit there, whatever the state. -/
theorem Fabric.resetAll_heldInReset {f : Fabric} {g : Boot → Boot} (hr : (g f.resetAll.boot).inReset = true)
    (hn : (g f.resetAll.boot).rstN = false) : (f.resetAll.updBoot g).heldInReset := by
  refine ⟨hr, hn, rfl, rfl, rfl, rfl, rfl, rfl, rfl, fun d => ?_⟩
  rw [Fabric.updBoot_die, Fabric.resetAll_die]

theorem fabRstAssert_heldInReset (s : State) : answers .fabRstAssert s Fabric.heldInReset :=
  (gives_fabRstAssert s).answers (Fabric.resetAll_heldInReset rfl rfl).track

/-- A command that acts where a condition holds keeps what its effect keeps. -/
theorem answers_when {c : Instr} {s : State} {b : Fabric → Bool} {g : Fabric → Fabric} {P : Fabric → Prop}
    (hc : exec c s = s.run fun f => f.when (b f) g) (hs : P s.fab) (hg : P (g s.fab)) : answers c s P := by
  refine ⟨s.fab.when (b s.fab) g, hc, ?_⟩
  cases b s.fab with
  | true => exact hg
  | false => exact hs

/-- What the pins and clocks do to a held reset: none of them ends it but the release of FAB_RST_N. -/
theorem actsOnReset_heldInReset {c : Instr} {s : State} (hc : actsOnReset c = true) (hne : c ≠ .fabRstRelease)
    (h : s.fab.heldInReset) : answers c s Fabric.heldInReset := by
  have ⟨hreset, hpin, _⟩ := h
  cases c <;> cases hc
  case fabPgChange.refl d high =>
    refine answers_when (b := fun f => d < nDies f.variant) rfl h ?_
    cases high with
    | true =>
      dsimp only
      rw [hreset]
      exact (h.updBoot (g := fun b => { b with pg := b.pg ||| BitVec.ofNat 4 (2 ^ d) }) rfl rfl).track.tryRelease
    | false => exact ((Fabric.resetAll_heldInReset rfl hpin).pll d false).track
  case fabRstAssert.refl => exact fabRstAssert_heldInReset s
  case fabRstRelease.refl => exact absurd rfl hne
  case pllLock.refl d =>
    exact answers_when (c := .pllLock d) (b := fun f => d < nDies f.variant && f.boot.inReset && f.railsGood) rfl h
      (h.pll d true).track.tryRelease
  case pllLockTimeout.refl d =>
    exact answers_when (c := .pllLockTimeout d) (s := s) (b := fun f =>
      d < nDies f.variant && f.boot.inReset && f.railsGood && !(f.die d).pllLocked && f.boot.latch == 2) rfl h
      (h.updBoot rfl rfl)
  case pllUnlock.refl d =>
    refine answers_when (b := fun f => d < nDies f.variant) rfl h ?_
    rw [hreset]
    exact (h.pll d false).track

/-- No command but the release of FAB_RST_N ends a held reset, or changes a unit in it. -/
theorem exec_heldInReset {c : Instr} {s : State} (hne : c ≠ .fabRstRelease) (h : s.fab.heldInReset) :
    answers c s Fabric.heldInReset := by
  cases hc : actsOnReset c with
  | true => exact actsOnReset_heldInReset hc hne h
  | false =>
    have ⟨hr, _⟩ := h
    obtain ⟨b, hb⟩ := exec_inReset hc hr
    exact hb.answers h

theorem answers.next {c : Instr} {s t : State} {P : Fabric → Prop} (h : answers c s P) (ht : exec c s = .next t) :
    t.pending = s.pending ∧ P t.fab := by
  obtain ⟨g, hg, hP⟩ := h
  obtain rfl : { s with fab := g } = t := Host.Outcome.next.inj (hg.symm.trans ht)
  exact ⟨rfl, hP⟩

/-- Settles O60: FAB_RST_N falls, and reset clears every unit. -/
theorem resetBeginsHeld : Obligations.ResetBeginsHeld := by
  intro s t hn ht
  obtain ⟨hpending, hheld⟩ := (fabRstAssert_heldInReset s).next ht
  exact heldInReset_iff.2 ⟨hheld, hpending ▸ hn⟩

/-- Settles O59: the front command keeps the held reset, and so does a cycle, in which nothing happens. -/
theorem resetIsHeld : Obligations.ResetIsHeld := by
  intro s t h ht
  obtain ⟨hheld, hn⟩ := heldInReset_iff.1 h
  cases hp : s.pending with
  | nil =>
    rw [step_of_nil hp, Fabric.when_not _ hheld.not_live] at ht
    exact Host.Outcome.next.inj ht ▸ h
  | cons c rest =>
    rw [step_of_cons hp] at ht
    rw [hp, List.mem_cons, not_or] at hn
    obtain ⟨hne, hrest⟩ := hn
    obtain ⟨hpending, hkept⟩ := (exec_heldInReset (s := { s with pending := rest }) (Ne.symm hne) hheld).next ht
    exact heldInReset_iff.2 ⟨hkept, hpending ▸ hrest⟩

end Sys2Proof.Machine
end

section
/-! SUPPORT. How FENCEP, SPARE, POWER and SNAP start (12 R282, R283, R285; 16 R366; 17 R372). -/

namespace Sys2Proof.Machine

section
variable {f g : Fabric}
theorem Fabric.dies_of_offFmu (h : f.offFmu = g.offFmu) : f.dies = g.dies := (congrArg Fabric.dies h :)
end

section
variable (f : Fabric) (eid : Nat) (st : Status) (info : BitVec 48)
@[simp] theorem Fabric.finish_fmu_nis : (f.finish .fmu eid st info).nis = f.nis :=
  Fabric.nis_of_offFmu (f.finish_fmu_offFmu eid st info)
@[simp] theorem Fabric.finish_fmu_stops : (f.finish .fmu eid st info).stops = f.stops :=
  Fabric.stops_of_offFmu (f.finish_fmu_offFmu eid st info)
@[simp] theorem Fabric.finish_fmu_dies : (f.finish .fmu eid st info).dies = f.dies :=
  Fabric.dies_of_offFmu (f.finish_fmu_offFmu eid st info)
end

section
variable {c : Instr} {s : State} {e : QEntry} (hs : fmuStartable s.fab e)
include hs

/-- A form of FENCEP starts where the op at the head is of that form. -/
theorem gives_startFence {dom on : Bool} {k : Fabric → QEntry → Fabric} (h : gives c s (s.fab.startFence dom on k))
    (hm : s.fab.moving = true) (ho : opcOf e.op = ocFencep) (hd : bit e.op 93 = dom) (hon : fld e.op 95 94 = b2n on) :
    gives c s (k (s.fab.fmuSkip.begin .fmu e) e) := by
  have ⟨_, _, hhead⟩ := hs
  rw [Fabric.startFence, hhead] at h
  simp only [hd, hon, beq_self_eq_true, Bool.and_self, if_true] at h
  exact h.startMgmt hs hm rfl ho

/-- A SPARE of a kind joins the staged actions; a kind in use is not reserved (17 R372). -/
theorem gives_spareOp {kind : Nat} {bypass : Option Bool} (h : gives c s (s.fab.spareOp kind bypass))
    (ho : opcOf e.op = ocSpare) (hk : fld e.op 95 92 = kind) (hkind : kind < 7)
    (hb : bypass = none ∨ bypass = some (bit e.op 0)) :
    gives c s ((s.fab.fmuSkip.begin .fmu e).stageAction e
      (.spare (fld e.op 95 92) (fld e.op 91 82) (e.op.extractLsb' 0 32))) := by
  have ⟨_, _, hhead⟩ := hs
  rw [Fabric.spareOp, hhead] at h
  rcases hb with rfl | rfl
  all_goals
    simp only [hk, beq_self_eq_true, Bool.and_self, Bool.or_true, if_true] at h
    have hstart := gives_startStream h hs ho
    rwa [if_neg (Nat.not_le.2 hkind), ← hk] at hstart

/-- A POWER of a port with an NI joins them too, unless the package is stopped (12 R285; 16 R368). -/
theorem gives_powerOp {on : Bool} (h : gives c s (s.fab.powerOp on)) (hm : s.fab.moving = true) (ho : opcOf e.op = ocPower)
    (hon : bit e.op 95 = on) (hk : (s.fab.fmuSkip.begin .fmu e).kind (fld e.op 89 80) ≠ 0) :
    gives c s ((s.fab.fmuSkip.begin .fmu e).stageAction e (.power (fld e.op 89 80) on)) := by
  have ⟨_, _, hhead⟩ := hs
  rw [Fabric.powerOp, hhead] at h
  simp only [hon, beq_self_eq_true, if_true] at h
  have h' := h.startMgmt hs hm rfl ho
  rwa [if_neg (by simpa using hk)] at h'

/-- A SNAP with a `STOP` bit is refused, or is issued and sets its instant (16 R366). -/
theorem gives_snapOp {stop : Bool} (h : gives c s (s.fab.snapOp stop)) (ho : opcOf e.op = ocSnap) (hb : bit e.op 95 = stop) :
    let g := s.fab.fmuSkip.begin .fmu e
    (∀ r, g.snapReason e.op = some r → gives c s (g.refuseOp e r)) ∧
    (g.snapReason e.op = none → gives c s ((g.updEntry .fmu e.eid fun x => { x with issued := true }).updFmu fun m =>
      { m with stop := if stop then m.stop.order (fld e.op 59 0) else { m.stop with freezeAt := some (fld e.op 59 0) } })) := by
  intro g
  have ⟨_, _, hhead⟩ := hs
  rw [Fabric.snapOp, hhead] at h
  simp only [hb, beq_self_eq_true, if_true] at h
  have h' := gives_startStream h hs ho
  refine ⟨fun r hr => ?_, fun hr => ?_⟩
  all_goals
    change g.snapReason e.op = _ at hr
    simp only [show (s.fab.fmuSkip.begin .fmu e).snapReason e.op = _ from hr] at h'
    exact h'

end

/-- What joins the list of staged actions: refused while a turn is sealed, else listed, and the set to be checked anew
(17 R372; log entries 41, 144). -/
theorem stages_of_gives {c : Instr} {s : State} {g : Fabric} {e : QEntry} {a : Action} (h : gives c s (g.stageAction e a)) :
    (g.fmu.turn.sealed_ = true → gives c s (g.refuseOp e 0x07)) ∧
    (g.fmu.turn.sealed_ = false → answers c s fun h =>
      h.fmu.drain.actions = g.fmu.drain.actions ++ [a] ∧ h.fmu.turn.checked = false ∧
      h.nis = g.nis ∧ h.stops = g.stops ∧ h.dies = g.dies) := by
  refine ⟨fun ht => ?refused, fun ht => ?listed⟩
  case refused => rwa [Fabric.stageAction, if_pos ht] at h
  case listed =>
    rw [Fabric.stageAction, if_neg (Bool.eq_false_iff.mp ht)] at h
    refine h.answers ?_
    simp

/-- Of a SNAP stop and a pending HALT stop the earlier applies (16 R367). -/
theorem StopCtl.order_later {c : StopCtl} {a : Nat} {halt : Bool} {t : Nat} (hc : c.stopAt = some (a, halt)) (h : a ≤ t) :
    c.order t = c := by simp [StopCtl.order, hc, h]

theorem StopCtl.order_earlier {c : StopCtl} {t : Nat} (h : ∀ a halt, c.stopAt = some (a, halt) → t < a) :
    c.order t = { c with stopAt := some (t, false), lastAt := t } := by
  unfold StopCtl.order
  split
  next a halt hc => rw [if_neg (Nat.not_le.2 (h a halt hc))]
  next => rfl

/-- Settles O16, form by form. -/
theorem fenceOpsOrder : Obligations.FenceOpsOrder := by
  intro s e hs hm ho g p d sends
  have port {c : Instr} {on : Bool} (hc : gives c s (s.fab.fencePortOp on)) (hd : bit e.op 93 = false)
      (hon : fld e.op 95 94 = b2n on) : sends c on := by
    have h := gives_startFence hs hc hm ho hd hon
    refine ⟨fun hp => ?sent, fun hp => ?refused⟩
    case sent =>
      rw [if_pos hp] at h
      exact h.answers ⟨rfl, rfl, rfl⟩
    case refused => rwa [if_neg (Bool.eq_false_iff.mp hp)] at h
  refine ⟨port (c := .fencePort) (on := true) rfl, port (c := .openPort) (on := false) rfl, fun hd hon => ?_, fun hd hon => ?_⟩
  · exact (gives_startFence hs (on := true) (c := .fenceDomain) rfl hm ho hd hon).answers ⟨rfl, rfl, rfl, rfl⟩
  · exact (gives_startFence hs (on := false) (c := .openDomain) rfl hm ho hd hon).answers ⟨rfl, rfl, rfl, rfl⟩

/-- Settles O17: each of the ten forms stages its action. -/
theorem stagedActionsJoinTheList : Obligations.StagedActionsJoinTheList := by
  intro s e hs g stages
  refine ⟨fun ho => ?spare, fun hm ho hk => ⟨fun hon => ?on, fun hoff => ?off⟩⟩
  case on => exact stages_of_gives (gives_powerOp hs (c := .powerOn) rfl hm ho hon hk)
  case off => exact stages_of_gives (gives_powerOp hs (c := .powerOff) rfl hm ho hoff hk)
  case spare =>
    intro a
    have plain {c : Instr} {kind : Nat} (hc : gives c s (s.fab.spareOp kind none)) (hkind : kind < 7)
        (hk : fld e.op 95 92 = kind) : stages c a :=
      stages_of_gives (gives_spareOp hs hc ho hk hkind (.inl rfl))
    have bypass {c : Instr} {b : Bool} (hc : gives c s (s.fab.spareOp 4 (some b))) (hk : fld e.op 95 92 = 4)
        (hb : bit e.op 0 = b) : stages c a :=
      stages_of_gives (gives_spareOp hs hc ho hk (by decide) (.inr (by rw [hb])))
    exact ⟨plain (c := .spareWire) rfl (by decide), plain (c := .spareRetrain) rfl (by decide),
      plain (c := .spareBank) rfl (by decide), plain (c := .spareSlice) rfl (by decide),
      bypass (c := .spareBypass) (b := true) rfl, bypass (c := .spareRestore) (b := false) rfl,
      plain (c := .spareGateway) rfl (by decide), plain (c := .spareTree) rfl (by decide)⟩

/-- Settles O18: the freeze sets its instant; a stop sets its own unless an earlier one is pending. -/
theorem snapSetsItsInstant : Obligations.SnapSetsItsInstant := by
  intro s e hs ho g
  have freeze (hb : bit e.op 95 = false) := gives_snapOp hs (c := .snapFreeze) rfl ho hb
  have stop (hb : bit e.op 95 = true) := gives_snapOp hs (c := .snapStop) rfl ho hb
  refine ⟨fun r hr => ⟨fun hb => (freeze hb).1 r hr, fun hb => (stop hb).1 r hr⟩, fun hr => ⟨fun hb => ?_, fun hb => ?_⟩⟩
  · exact ((freeze hb).2 hr).answers ⟨rfl, rfl, rfl⟩
  · exact ((stop hb).2 hr).answers ⟨rfl, rfl, fun a c ha hle => StopCtl.order_later ha hle, StopCtl.order_earlier⟩

end Sys2Proof.Machine
end

section
/-! SUPPORT. Orders and their answers on the service road, and the op of the FMU's stream that completes alone
(13 R297; 15 R332; 12 R284; 19 R414). -/

namespace Sys2Proof.Machine

/-! ## An op alone on the FMU's stream (07 R170) -/

section
variable {f : Fabric} {e : QEntry}

/-- The completion of the op that is alone on the FMU's stream leaves the stream empty. -/
theorem Fabric.finish_fmu_alone (hq : f.fmu.chan.queue = [e]) (ha : f.fmu.chan.aborts = []) (st : Status) (info : BitVec 48) :
    (f.finish .fmu e.eid st info).fmu.chan.queue = [] := by
  have hretire (st : Status) (info : BitVec 48) : ((f.retire .fmu e st info).chan .fmu).queue = [] ∧
      ((f.retire .fmu e st info).chan .fmu).aborts = [] := by
    rcases f.unissued_passes .fmu e with h | h <;>
      simp [Fabric.retire, h, Fabric.updChan, Fabric.setChan, Fabric.updCtr, Fabric.chan, hq, ha]
  have hdone (st : Status) (info : BitVec 48) : ((f.retire .fmu e st info).settle .fmu).fmu.chan.queue = [] := by
    obtain ⟨hempty, hnone⟩ := hretire st info
    rw [Fabric.settle_empty hempty hnone]
    exact hempty
  have hentry : f.entry .fmu e.eid = some e := by simp [Fabric.entry, Fabric.chan, hq]
  rw [Fabric.finish, hentry]
  dsimp only
  split
  · exact hdone ..
  · exact hdone ..

end

section
variable (f : Fabric) (eid : Nat) (st : Status) (info : BitVec 48)
@[simp] theorem Fabric.finish_fmu_road : (f.finish .fmu eid st info).fmu.road = f.fmu.road :=
  (congrArg Fmu.road (f.finish_fmu_offStream eid st info) :)
end

section
variable (f : Fabric) (cause : BitVec 2)
theorem Fabric.digestEvent_fmu : ∃ d, (f.digestEvent cause).fmu = { f.fmu with dig := d } := ⟨_, rfl⟩
@[simp] theorem Fabric.digestEvent_nis : (f.digestEvent cause).nis = f.nis := rfl
@[simp] theorem Fabric.digestEvent_stops : (f.digestEvent cause).stops = f.stops := rfl
@[simp] theorem Fabric.digestEvent_chan : (f.digestEvent cause).fmu.chan = f.fmu.chan := rfl
end

/-! ## The orders (13 R297) -/

theorem Fabric.applyOrder_stage (f : Fabric) (v : UnitId) (eid : Nat) (off w : Word) (op : Op) :
    f.applyOrder v (.stage eid off w op) = f.stageWrite v off.toNat w := rfl

section
variable {s : State} (hm : s.fab.moving = true)
include hm

/-- A unit that has no answer on its way performs the oldest order sent to it. -/
theorem gives_mgtOpReceive {u v : UnitId} {o : Order} {rest : List (UnitId × Order)}
    (hfree : ∀ x ∈ s.fab.fmu.road.answers, ¬ (x.1 = u ∧ x.2.direct = true))
    (hfirst : takeFirst (fun x => x.1 == u && x.2.direct) s.fab.fmu.road.orders = some ((v, o), rest)) :
    gives (.mgtOpReceive u) s ((s.fab.applyOrder v o).updFmu fun m => { m with road := { m.road with
      orders := rest, answers := m.road.answers ++ [(v, o)] } }) := by
  have h := gives_when (c := .mgtOpReceive u) (b := Fabric.moving) rfl hm
  have hnone : (s.fab.fmu.road.answers.any fun x => x.1 == u && x.2.direct) = false := by
    simpa using hfree
  rwa [hnone, hfirst] at h

/-- The FMU takes the answer of a STAGE: its op has one unit less to wait for, and completes with the last (15 R332). -/
theorem gives_mgtRspReceive {u v : UnitId} {off data : Word} {op : Op} {rest : List (UnitId × Order)} {e : QEntry}
    (hfirst : takeFirst (fun x => x.1 == u && x.2.direct) s.fab.fmu.road.answers = some ((v, .stage e.eid off data op), rest))
    (hq : s.fab.fmu.chan.queue = [e]) :
    let f := (s.fab.updFmu fun m => { m with road := { m.road with answers := rest } }).updWork .fmu e.eid
      fun k => { k with outstanding := k.outstanding - 1 }
    gives (.mgtRspReceive u) s (if e.work.outstanding - 1 == 0 then f.finish .fmu e.eid .ok 0 else f) ∧
    f.fmu.road.answers = rest ∧ f.fmu.chan.aborts = s.fab.fmu.chan.aborts ∧
    f.fmu.chan.queue = [{ e with work := { e.work with outstanding := e.work.outstanding - 1 } }] := by
  intro f
  have hqueue : f.fmu.chan.queue = [{ e with work := { e.work with outstanding := e.work.outstanding - 1 } }] := by
    change s.fab.fmu.chan.queue.map _ = _
    rw [hq]
    simp
  have hentry : f.entry .fmu e.eid = some { e with work := { e.work with outstanding := e.work.outstanding - 1 } } := by
    simp [Fabric.entry, Fabric.chan, hqueue]
  refine ⟨?_, rfl, rfl, hqueue⟩
  have h := gives_when (c := .mgtRspReceive u) (b := Fabric.moving) rfl hm
  rw [hfirst] at h
  dsimp only at h
  rwa [hentry] at h

/-- Every unit that a FENCEP changed has confirmed (12 R284, R288). -/
theorem gives_fencepComplete {e : QEntry} (hopen : s.fab.fenceOpen = false) (hr : s.fab.running .fmu ocFencep = some e) :
    gives .fencepComplete s ((s.fab.finish .fmu e.eid .ok 0).digestEvent 1) := by
  have h := gives_when (c := .fencepComplete) (s := s) (b := fun f => f.moving && !f.fenceOpen) rfl (by simp [hm, hopen])
  rwa [hr] at h

/-- A stop answers the order for its board (19 R414). -/
theorem gives_cntGatherReceive {t ms : Nat} {rest : List (UnitId × Order)}
    (ho : s.fab.fmu.road.orders = (.stop t, .gather ms) :: rest) :
    gives (.cntGatherReceive t) s (s.fab.updFmu fun m => { m with road := { m.road with
      orders := rest, answers := m.road.answers ++ [(.stop t, .gather ms)] } }) := by
  have h := gives_when (c := .cntGatherReceive t) (b := Fabric.moving) rfl hm
  rw [ho] at h
  simpa [takeFirst] using h

/-- The FMU keeps what a stop counted, while another stop has still to answer. -/
theorem gives_cntDataReceive {t ms : Nat} {rest : List (UnitId × Order)}
    (ha : s.fab.fmu.road.answers = (.stop t, .gather ms) :: rest) (hg : s.fab.fmu.boards.gathering = some ms) :
    let all := s.fab.fmu.boards.gathered.put t (s.fab.stopU t).obs.captured
    (∃ u, u < nStops s.fab.variant ∧ NMap.find? all u = none) →
    gives (.cntDataReceive t) s (s.fab.updFmu fun m => { m with
      road := { m.road with answers := rest }, boards := { m.boards with gathered := all } }) := by
  intro all hmissing
  have hall : (s.fab.stopIds.all fun u => (all.find? u).isSome) = false := by
    obtain ⟨u, hu, hnone⟩ := hmissing
    rw [List.all_eq_false]
    exact ⟨u, List.mem_range.2 hu, by simp [hnone]⟩
  have h := gives_when (c := .cntDataReceive t) (b := Fabric.moving) rfl hm
  rw [ha, hg] at h
  simp only [takeFirst, beq_self_eq_true, if_true] at h
  rwa [show Fabric.stopIds (s.fab.updFmu _) = s.fab.stopIds from rfl, hall] at h

end

/-- Settles O19: the road's five steps, each the outcome of one command. -/
theorem ordersAndConfirmations : Obligations.OrdersAndConfirmations := by
  refine ⟨fun s u v o rest hm hfree hfirst => ?performed, fun s u v eid off data op rest e hm hfirst hq heid _ ha => ?answered,
    fun s e hm hopen hr => ⟨gives_fencepComplete hm hopen hr, fun hq ha => ?fenced⟩, fun s t ms rest hm ho => ?gather,
    fun s t ms rest hm ha hg hmissing => ?data⟩
  case performed =>
    refine (gives_mgtOpReceive hm hfree hfirst).answers ⟨rfl, rfl, rfl, rfl, fun p on hv ho => ?_, fun eid off w op ho => ?_⟩
    · subst hv ho
      simp [Fabric.applyOrder]
    · subst ho
      exact ⟨rfl, rfl⟩
  case answered =>
    subst heid
    obtain ⟨h, hanswers, haborts, hqueue⟩ := gives_mgtRspReceive hm hfirst hq
    refine h.answers ?_
    rcases Nat.lt_or_ge 1 e.work.outstanding with hmore | hlast
    · rw [if_neg (by simp; omega), if_neg (by omega)]
      exact ⟨hanswers, hqueue⟩
    · rw [if_pos (by simp; omega), if_pos hlast]
      exact ⟨by rw [Fabric.finish_fmu_road]; exact hanswers, Fabric.finish_fmu_alone hqueue (haborts.trans ha) ..⟩
  case fenced =>
    exact (gives_fencepComplete hm hopen hr).answers ⟨Fabric.finish_fmu_alone hq ha .., by simp, by simp⟩
  case gather => exact (gives_cntGatherReceive hm ho).answers ⟨rfl, rfl, rfl, rfl⟩
  case data => exact (gives_cntDataReceive hm ha hg hmissing).answers ⟨rfl, rfl, hg, rfl⟩

end Sys2Proof.Machine
end

section
/-! SUPPORT. A stop that attends to its buffers changes nothing of the FMU (03 R80; 09 R216). -/

namespace Sys2Proof.Machine

section
variable (f : Fabric) (s : Nat)

theorem Fabric.stopRspDrop_fmu (h : Header) (st : Status) : (f.stopRspDrop s h st).fmu = f.fmu := by
  unfold Fabric.stopRspDrop
  split <;> rfl

theorem Fabric.portRefused_fmu (port : Nat) (st : Status) : (f.portRefused port st).fmu = f.fmu := by
  unfold Fabric.portRefused
  split <;> rfl

theorem Fabric.stopSend_fmu (x : Packet) (bs : List Branch) : (f.stopSend s x bs).fmu = f.fmu := rfl

theorem Fabric.stopAnswer_fmu (x : Packet) : (f.stopAnswer s x).fmu = f.fmu := by
  unfold Fabric.stopAnswer
  dsimp only
  split
  next =>
    split
    next => rfl
    next =>
      split
      next => rfl
      next => exact (stopRspDrop_fmu _ s _ _).trans (f.portRefused_fmu _ _)
    next => exact f.stopRspDrop_fmu s _ _
    next => rfl
  next => exact f.stopRspDrop_fmu s _ _
  next => rfl

theorem Fabric.leafDone_fmu (slot : Nat) : (f.leafDone s slot).fmu = f.fmu := by
  unfold Fabric.leafDone
  split
  · rfl
  · dsimp only
    split
    · rfl
    · exact stopAnswer_fmu _ s _

theorem Fabric.leafStatus_fmu (slot p : Nat) (st : Status) : (f.leafStatus s slot p st).fmu = f.fmu := leafDone_fmu _ s slot

theorem Fabric.stopDiscard_fmu (h : Header) (st : Status) : (f.stopDiscard s h st).fmu = f.fmu := by
  unfold Fabric.stopDiscard
  split
  · exact f.stopRspDrop_fmu s h st
  · split
    · dsimp only
      split <;> rfl
    · rfl

theorem Fabric.stopRefuse_fmu (h : Header) (st : Status) : (f.stopRefuse s h st).1.fmu = f.fmu := by
  unfold Fabric.stopRefuse
  split
  · rfl
  · exact f.stopDiscard_fmu s h st

theorem Fabric.buryBranch_fmu (q : QPkt) (b : Branch) : (f.buryBranch s q b).fmu = f.fmu := by
  unfold Fabric.buryBranch
  split
  · rfl
  · split
    · exact f.leafStatus_fmu s _ _ _
    · split
      · exact f.stopAnswer_fmu s _
      · split
        · exact f.stopRspDrop_fmu s _ _
        · rfl

theorem Fabric.bury_fmu (q : QPkt) : (f.bury s q).1.fmu = f.fmu := by
  unfold Fabric.bury
  split
  · split
    · rfl
    · dsimp only
      split
      · exact Fabric.forEach_keeps Fabric.fmu (fun g b => g.buryBranch_fmu s q b) f _
      · exact f.stopRefuse_fmu s _ _
  · rfl

theorem Fabric.oweKey_fmu (key n : Nat) : (f.oweKey s key n).fmu = f.fmu := by
  unfold Fabric.oweKey Fabric.oweIn Fabric.owe
  split
  · split
    · rfl
    · split <;> rfl
  · rfl

theorem Fabric.attend_fmu (key i : Nat) : (f.attend s key i).fmu = f.fmu := by
  unfold Fabric.attend
  split
  next => rfl
  next q0 _ =>
    dsimp only
    generalize (if i = 0 && (f.bury s q0).1.rduTakes s (f.bury s q0).2 then _ else _ : QPkt × Nat) = r
    have howe (l : List QPkt) : (((f.bury s q0).1.setStopQ s key l).oweKey s key r.2).fmu = f.fmu :=
      (oweKey_fmu _ s key _).trans (f.bury_fmu s q0)
    split
    · split
      · exact (stopAnswer_fmu _ s _).trans (howe _)
      · exact howe _
    · exact howe _

theorem Fabric.reap_fmu : (f.reap s).fmu = f.fmu := by
  have hkeys (g : Fabric) (e : Nat × List QPkt) :
      ((List.range e.2.length).reverse.foldl (fun h i => h.attend s e.1 i) g).fmu = g.fmu :=
    Fabric.forEach_keeps Fabric.fmu (fun h i => h.attend_fmu s e.1 i) g _
  exact Fabric.forEach_keeps Fabric.fmu hkeys f _

end

end Sys2Proof.Machine
end

section
/-! SUPPORT. What the arming and the disarming of a turn change of it (15 R339-R341; 12 R286, R287; 16 R357, R358). -/

namespace Sys2Proof.Machine

/-! ## Gating a port (12 R286) -/

section
variable (f : Fabric)

/-- Of the FMU, gating a port changes the determinism record only: a power event for the digest. -/
theorem Fabric.gatePort_turn (p : Nat) : (f.gatePort p).fmu.turn = f.fmu.turn := by
  change (Fabric.reap _ (stopOfPort p)).fmu.turn = _
  rw [Fabric.reap_fmu]
  rfl

theorem Fabric.forEach_gatePort_turn (l : List Nat) : (f.forEach l fun g p => g.gatePort p).fmu.turn = f.fmu.turn :=
  Fabric.forEach_keeps (·.fmu.turn) Fabric.gatePort_turn f l

/-- Every unit is told to disarm (15 R340). -/
theorem Fabric.disarm_turn (st : Status) (info : BitVec 48) :
    (f.disarm st info).fmu.turn = { f.fmu.turn with disarming := true, fail := some (st, info), ungated := [] } := by
  unfold Fabric.disarm
  dsimp only
  rw [Fabric.setQuiesce_fmu, Fabric.forEach_gatePort_turn]
  rfl

end

end Sys2Proof.Machine
end

section
/-! SUPPORT. The evaluation of a fault logs it first; its actions change neither the log nor a turn (16 R357-R363). -/

namespace Sys2Proof.Machine

/-- What the actions of a severity leave alone: the turn, the log and its sequence number. -/
def Fabric.judged (f : Fabric) : Turn × List LogEntry × BitVec 16 := (f.fmu.turn, f.fmu.fault.log, f.fmu.fault.logSeq)

section
variable (f : Fabric)

theorem Fabric.pulse_judged : f.pulse.judged = f.judged := by
  unfold Fabric.pulse
  split <;> rfl

theorem Fabric.addRepair_judged (r : Repair) : (f.addRepair r).judged = f.judged := by
  unfold Fabric.judged Fabric.addRepair
  dsimp only [Fabric.updFmu_fmu]
  split
  · rfl
  · split <;> rfl

theorem Fabric.applyContain_judged (t : Bool × Nat) : (f.applyContain t).judged = f.judged := by
  unfold Fabric.applyContain
  dsimp only
  split
  · rfl
  · split <;> rfl

theorem Fabric.contain_judged (t : Bool × Nat) : (f.contain t).judged = f.judged := by
  unfold Fabric.contain
  split
  · rfl
  · exact f.applyContain_judged t

theorem Fabric.haltBoot_judged (r : FaultRec) : (f.haltBoot r).judged = f.judged := by
  unfold Fabric.haltBoot
  split
  · rfl
  · split <;> rfl

theorem Fabric.halt4_judged (r : FaultRec) : (f.halt4 r).judged = f.judged := by
  unfold Fabric.halt4
  split
  · exact f.haltBoot_judged r
  · split
    · rfl
    · unfold Fabric.judged
      dsimp only [Fabric.updFmu_fmu]
      split
      · split <;> rfl
      · rfl

/-- The counts of escalation are kept beside the log. -/
theorem FaultState.escalate_log (q : FaultState) (srcid : BitVec 16) (cls : Nat) (noesc : Bool) :
    (q.escalate srcid cls noesc).1.log = q.log ∧ (q.escalate srcid cls noesc).1.logSeq = q.logSeq := by
  unfold FaultState.escalate
  dsimp only
  split
  · exact ⟨rfl, rfl⟩
  · split <;> exact ⟨rfl, rfl⟩

/-- The actions of a severity and of every lower one (16 R357); `w` is the kind's word of the Severity Table. -/
def Fabric.severityActs (f : Fabric) (r : FaultRec) (w : Word) (eff : Nat) : Fabric :=
  if eff == 0 then f
  else
    let f2 := (f.updFmu fun m => { m with fault := { m.fault with
      counts := m.fault.counts.upd r.fkind.toNat 0 (· + 1) } }).pulse
    if eff == 1 then f2
    else
      let f3 := match f2.repairOf r with
        | some (some x) => f2.addRepair x
        | some none => f2.noSpare
        | none => f2
      if eff == 2 then f3
      else
        let f4 := match containTarget (bit w 4) r with
          | some t => f3.contain t
          | none => f3
        if eff == 3 then f4 else f4.halt4 r

theorem Fabric.severityActs_judged (r : FaultRec) (w : Word) (eff : Nat) : (f.severityActs r w eff).judged = f.judged := by
  unfold Fabric.severityActs
  split
  · rfl
  extract_lets f2 f3 f4
  have h2 : f2.judged = f.judged := Fabric.pulse_judged _
  split
  · exact h2
  have h3 : f3.judged = f.judged := by
    unfold f3
    split
    exacts [(f2.addRepair_judged _).trans h2, h2, h2]
  split
  · exact h3
  have h4 : f4.judged = f.judged := by
    unfold f4
    split
    exacts [(f3.contain_judged _).trans h3, h3]
  split
  exacts [h4, (f4.halt4_judged r).trans h4]

/-- A fault is logged with its severity, and with the table's, before anything else is done (16 R357, R363). -/
theorem Fabric.evaluate_eq (r : FaultRec) : ∃ (q : FaultState) (le : LogEntry) (w : Word) (eff : Nat),
    q.log = f.fmu.fault.log ∧ q.logSeq = f.fmu.fault.logSeq ∧ { le.rec_ with sev := r.sev } = r ∧
    le.tabSev = (f.sevWord r.fkind.toNat).extractLsb' 0 3 ∧
    f.evaluate r = (f.updFmu fun m => { m with fault := q.log1 le }).severityActs r w eff := by
  obtain ⟨hlog, hseq⟩ := f.fmu.fault.escalate_log r.srcid (fld r.fclass 3 0) (bit (f.sevWord r.fkind.toNat) 5)
  exact ⟨_, _, _, _, hlog, hseq, rfl, rfl, rfl⟩

theorem Fabric.evaluate_turn (r : FaultRec) : (f.evaluate r).fmu.turn = f.fmu.turn := by
  obtain ⟨q, le, w, eff, -, -, -, -, h⟩ := f.evaluate_eq r
  rw [h]
  exact congrArg Prod.fst (Fabric.severityActs_judged ..)

end

end Sys2Proof.Machine
end

section
/-! SUPPORT. The steps of arming and disarming (15 R339-R341; 12 R287; 18 R399). -/

namespace Sys2Proof.Machine

section
variable (f : Fabric)

/-- A unit's confirmation or refusal joins its list; nothing else of the turn changes, and no NI. -/
theorem Fabric.unitArmed_outcome (u : UnitId) (good : Bool) :
    (f.unitArmed u good).fmu.turn = { f.fmu.turn with
      confirmed := f.fmu.turn.confirmed ++ (if good then [u] else [])
      refused := f.fmu.turn.refused ++ (if good then [] else [u]) } ∧ (f.unitArmed u good).nis = f.nis := by
  refine ⟨?_, rfl⟩
  simp only [Fabric.unitArmed, Fabric.updDie_fmu, Fabric.updTurn_fmu]
  cases good <;> simp

/-- The X that a stop's bridge endpoints measure is kept at the stop (06 R137). -/
theorem Fabric.measureX_kept (s : Nat) (xs : List Nat) :
    (f.measureX s xs).fmu = f.fmu ∧ (f.measureX s xs).nis = f.nis :=
  ⟨Fabric.forEach_keeps Fabric.fmu (by intros; rfl) f _, Fabric.forEach_keeps Fabric.nis (by intros; rfl) f _⟩

/-- What a unit measures as it arms in a quiescing turn: a stop keeps the X of its bridge endpoints (06 R137). -/
def Fabric.armMeasures (f : Fabric) (u : UnitId) (ok : Bool) (x : List Nat) : Fabric :=
  match u with
  | .stop t => if ok then f.measureX t x else f
  | _ => f

theorem Fabric.armMeasures_kept (u : UnitId) (ok : Bool) (x : List Nat) :
    (f.armMeasures u ok x).fmu = f.fmu ∧ (f.armMeasures u ok x).nis = f.nis := by
  unfold Fabric.armMeasures
  split
  · split
    · exact f.measureX_kept _ x
    · exact ⟨rfl, rfl⟩
  · exact ⟨rfl, rfl⟩

end

section
variable {s : State}

/-- UNIT_ARM, for a unit that may answer now: its answer is good where it measures what a quiescing turn needs. -/
theorem gives_unitArm {u : UnitId} {good : Bool} {x : List Nat} (hm : s.fab.moving = true) (ha : s.fab.fmu.turn.arming = true)
    (hu : u ∈ s.fab.unarmed) (hwake : ∀ p, u = .ni p → (s.fab.sport p).pwr = .waking → good = false)
    (ht : s.fab.time.fcc ≤ s.fab.fmu.turn.armBy) (hq : s.fab.fmu.turn.quiescing = true → s.fab.quietUnit u = true) :
    let ok := good && (!s.fab.fmu.turn.quiescing || s.fab.measured u x)
    ∃ g : Fabric, g.fmu = s.fab.fmu ∧ g.nis = s.fab.nis ∧ gives (.unitArm u good x) s (g.unitArmed u ok) := by
  intro ok
  have h : gives (.unitArm u good x) s (s.fab.when _ _) := rfl
  have hquiet : (!s.fab.fmu.turn.quiescing || s.fab.quietUnit u) = true := by
    cases hc : s.fab.fmu.turn.quiescing <;> simp [hq, hc]
  have hready (p : Nat) (hp : u = .ni p) : ((s.fab.sport p).pwr == .waking && good) = false := by
    rw [Bool.and_eq_false_imp]
    exact fun hw => hwake p hp (beq_iff_eq.1 hw)
  rw [Fabric.when_of] at h
  case h =>
    cases u with
    | ni p => simp [hm, ha, hu, ht, hquiet, hready p rfl]
    | _ => simp [hm, ha, hu, ht, hquiet]
  cases hc : s.fab.fmu.turn.quiescing with
  | false =>
    refine ⟨s.fab, rfl, rfl, ?_⟩
    simpa [ok, hc] using h
  | true =>
    have hok : (good && s.fab.measured u x) = ok := by simp [ok, hc]
    obtain ⟨hfmu, hnis⟩ := s.fab.armMeasures_kept u ok x
    refine ⟨_, hfmu, hnis, ?_⟩
    simp only [hc, hok, Bool.not_true, Bool.false_eq_true, if_false] at h
    exact h

theorem gives_portWake {p : Nat} (good : Bool) (hm : s.fab.moving = true) (ha : s.fab.fmu.turn.arming = true)
    (hw : (s.fab.sport p).pwr = .waking) (hk : s.fab.kind p ≠ 0) (hs : (s.fab.ni p).pwr.waking.isSome = true)
    (ht : s.fab.time.fcc ≤ s.fab.fmu.turn.armBy) :
    let f := s.fab.updNi p fun n => { n with pwr := { n.pwr with waking := none } }
    gives (.portWake p good) s (if good then f.unitArmed (.ni p) true else f.wakeFails p) :=
  gives_when (c := .portWake p good) (b := fun f => f.moving && f.fmu.turn.arming && f.time.fcc ≤ f.fmu.turn.armBy &&
    (f.sport p).pwr == .waking && f.kind p != 0 && (f.ni p).pwr.waking.isSome) rfl (by simp [hm, ha, ht, hw, hk, hs])

/-- The lowest port that is not ready is kept (15 R340). -/
theorem Fabric.wakeFails_notReady (f : Fabric) (p : Nat) :
    ∃ q, (f.wakeFails p).fmu.turn.notReady = some q ∧ q ≤ p := by
  cases h : f.fmu.turn.notReady with
  | none => exact ⟨p, by simp [Fabric.wakeFails, Fabric.raiseFmu, h], Nat.le_refl p⟩
  | some q => exact ⟨min q p, by simp [Fabric.wakeFails, Fabric.raiseFmu, h], Nat.min_le_right q p⟩

theorem gives_armingDeadline (hm : s.fab.moving = true) (ha : s.fab.fmu.turn.arming = true)
    (hd : s.fab.due s.fab.fmu.turn.armBy = true) : gives .armingDeadline s (s.fab.reach s.fab.fmu.turn.armBy).deadline :=
  gives_when (c := .armingDeadline) (s := s) (b := fun f => f.moving && f.fmu.turn.arming && f.due f.fmu.turn.armBy) rfl
    (by simp [hm, ha, hd])

/-- At the deadline of a turn that wakes no port, it goes on if every unit has confirmed and is disarmed if not. -/
theorem Fabric.deadline_noWake {f : Fabric} (hu : f.fmu.turn.ungated = []) :
    let g := f.updTurn fun t => { t with deadlinePassed := true }
    f.deadline = if f.allArmed then g else g.disarm f.armFailure.1 f.armFailure.2 := by
  unfold Fabric.deadline
  rw [hu]
  rfl

/-- A unit confirms its disarm once (15 R340); its slice then shows whether every unit of the die has. -/
theorem unitDisarm_confirms {u : UnitId} (hl : s.fab.live = true) (hs : s.fab.fmu.turn.sealed_ = true)
    (hd : s.fab.fmu.turn.disarming = true) (hu : u ∈ s.fab.armUnits) (hn : u ∉ s.fab.fmu.turn.disarmed)
    (ht : s.fab.time.fcc ≤ s.fab.fmu.turn.disarmBy) : answers (.unitDisarm u) s fun h =>
      h.fmu.turn.disarmed = s.fab.fmu.turn.disarmed ++ [u] ∧ h.nis = s.fab.nis ∧ h.stops = s.fab.stops := by
  have h := gives_when (c := .unitDisarm u) (s := s) (b := fun f => f.live && f.fmu.turn.sealed_ && f.fmu.turn.disarming &&
    f.armUnits.contains u && f.time.fcc ≤ f.fmu.turn.disarmBy && !f.fmu.turn.disarmed.contains u) rfl
    (by simp [hl, hs, hd, hu, hn, ht])
  refine h.answers ?_
  dsimp only
  split <;> exact ⟨rfl, rfl, rfl⟩

theorem gives_disarmDeadline {u : UnitId} (hl : s.fab.live = true) (ha : s.fab.disarmAwaited = true)
    (hd : s.fab.due s.fab.fmu.turn.disarmBy = true) :
    let g := s.fab.reach s.fab.fmu.turn.disarmBy
    g.firstUnit g.undisarmed = some u →
    gives .disarmDeadline s ((g.updTurn fun t => { t with lost := true }).evaluate (mkFault 0 0
      FaultKind.turnDisarmLost.code FaultKind.turnDisarmLost.cls false (g.unitInfo u) g.time.fcc)) := by
  intro g hu
  have h := gives_when (c := .disarmDeadline) (s := s) (b := fun f => f.live && f.disarmAwaited && f.due f.fmu.turn.disarmBy)
    rfl (by simp [hl, ha, hd])
  change gives .disarmDeadline s g.disarmLost at h
  rwa [Fabric.disarmLost, hu] at h

/-- A cancel before the deadline disarms the turn, and a later one has no effect (15 R341). -/
theorem Fabric.turnCancel_arming {f : Fabric} (ha : f.fmu.turn.arming = true) (ht : f.time.fcc < f.fmu.turn.armBy) :
    f.turnCancel = (f.updTurn fun t => { t with cancelled := true }).disarm .aborted 0 :=
  if_pos (by simp [ha, ht])
theorem Fabric.turnCancel_late {f : Fabric} (ht : f.fmu.turn.armBy ≤ f.time.fcc) : f.turnCancel = f :=
  if_neg (by simp [Nat.not_lt.2 ht])

end

/-- Settles O20: each step is one command; what it changes of the turn is all it changes there. -/
theorem armingAndDisarming : Obligations.ArmingAndDisarming := by
  refine ⟨fun s u good x => ?arm, fun s p hm ha hw hk hs ht => ⟨?ready, ?fails⟩,
    fun s hm ha hd => ⟨gives_armingDeadline hm ha hd, fun hu hall => ?goesOn, fun hu hall => ?disarmed⟩,
    fun s u hl hs hd hu hn ht => unitDisarm_confirms hl hs hd hu hn ht,
    fun s u hl hs hd hlost hstop hdue hun => ?lost, fun s hl => ⟨fun ha ht => ?cancel, fun ht => ?late⟩⟩
  case arm =>
    intro t hm ha hu hwake ht hq ok
    obtain ⟨g, hfmu, hnis, h⟩ := gives_unitArm hm ha hu hwake ht hq
    obtain ⟨hturn, hkept⟩ := g.unitArmed_outcome u ok
    refine h.answers ?_
    rw [hturn, hkept, hfmu]
    exact ⟨rfl, rfl, rfl, hnis⟩
  case ready =>
    refine (gives_portWake true hm ha hw hk hs ht).answers ?_
    obtain ⟨hturn, hkept⟩ := Fabric.unitArmed_outcome
      (s.fab.updNi p fun n => { n with pwr := { n.pwr with waking := none } }) (.ni p) true
    rw [if_pos rfl, hturn, Fabric.ni, hkept]
    exact ⟨by simp, rfl⟩
  case fails =>
    let f := s.fab.updNi p fun n => { n with pwr := { n.pwr with waking := none } }
    have hni (q : Nat) : (f.wakeFails p).ni q = f.ni q := rfl
    refine (gives_portWake false hm ha hw hk hs ht).answers ⟨f.wakeFails_notReady p, ?_, fun q hq => ?_, rfl⟩
    · exact congrArg (·.pwr.waking) ((hni p).trans (Fabric.updNi_ni_self s.fab ..))
    · exact (hni q).trans (Fabric.updNi_ni_ne _ _ hq)
  case goesOn =>
    rw [← Fabric.reach_fmu s.fab s.fab.fmu.turn.armBy] at hu
    have h := gives_armingDeadline hm ha hd
    rw [Fabric.deadline_noWake hu, if_pos hall] at h
    exact h.answers ⟨by rw [Fabric.updTurn_fmu, Fabric.reach_fmu], rfl, rfl⟩
  case disarmed =>
    rw [← Fabric.reach_fmu s.fab s.fab.fmu.turn.armBy] at hu
    have h := gives_armingDeadline hm ha hd
    rw [Fabric.deadline_noWake hu, if_neg (by simp [hall])] at h
    refine h.answers ?_
    rw [Fabric.disarm_turn, Fabric.updTurn_fmu, ← hu, Fabric.reach_fmu]
  case lost =>
    intro g hu
    have h := gives_disarmDeadline hl (by simp [Fabric.disarmAwaited, hs, hd, hlost, hstop, hun]) hdue hu
    refine ⟨h, h.answers ?_⟩
    rw [Fabric.evaluate_turn]
    simp [hs]
  case cancel =>
    have h : gives .turnCancel s _ := gives_onBus Fabric.turnCancel rfl hl
    rw [Fabric.turnCancel_arming ha ht] at h
    exact ⟨h, h.answers ⟨rfl, Fabric.disarm_turn ..⟩⟩
  case late => exact Fabric.turnCancel_late ht ▸ gives_onBus Fabric.turnCancel rfl hl

end Sys2Proof.Machine
end

section
/-! SUPPORT. A port whose gating discards a SIG that it sent itself (12 R286; 16 R354). -/

namespace Sys2Proof.Machine

/-- A SIG from port 0, held at stop 0 with a branch towards port 0's own output. -/
def strandedSig : QPkt :=
  { hdr := { kind := 4, cls := 2 }, pay := 0, tailIn := true, route := .go [{ out := 4, hdr := {}, aux := 0 }] }

/-- Port 0 is isolating and its NI is quiet and drained, while stop 0 still holds that SIG. -/
def strandedSigState : State :=
  { fab := {
      stops := [(0, { vq := [(4, [strandedSig])], ports := [(0, { pwr := .isolating })] })]
      nis := [(0, { pwr := { drained := true } })] } }

/-- The port may be gated. -/
theorem strandedSig_gates : strandedSigState.fab.moving = true ∧ strandedSigState.fab.kind 0 ≠ 0 ∧
    (strandedSigState.fab.sport 0).pwr = .isolating ∧ (strandedSigState.fab.ni 0).quiet = true ∧
    (strandedSigState.fab.ni 0).pwr.drained = true ∧ strandedSigState.fab.comesBack 0 = false := by
  decide +kernel

/-- The SIG dies with the port's output, and its loss is counted at the NI that sent it: port 0's. -/
theorem strandedSig_counted : ((strandedSigState.fab.gatePort 0).ni 0).obs.err.get 3 0 = 1 := by
  decide +kernel

/-- Refutes O22: gating a port discards what its stop holds for it, and a SIG that the port itself sent is then
counted as lost at the port's NI, which the last clause says is left with its configuration alone. -/
theorem not_drainGoesOn : ¬ Obligations.DrainGoesOn := by
  intro h
  obtain ⟨hmoving, hkind, hpwr, hquiet, hdrained, hback⟩ := strandedSig_gates
  obtain ⟨hgate, g, hg, -, hni⟩ := h.2.2 strandedSigState 0 hmoving hkind hpwr hquiet hdrained hback
  have hcount := strandedSig_counted
  rw [hgate.unique hg, hni] at hcount
  exact absurd hcount (by decide)

end Sys2Proof.Machine
end

section
/-! SUPPORT. The end of a training phase of a ring link (18 R394, R395), and a word written to the program FIFO
(18 R392). -/

namespace Sys2Proof.Machine

section
variable (f : Fabric) (r i : Nat)

/-- What a stop keeps of the wires of one of its ring inputs. -/
def Fabric.wearOf : LinkWear := (f.stopU r).wear.get i {}

/-- The training logic writes what it keeps of an input. -/
def Fabric.updWear (g : LinkWear → LinkWear) : Fabric := f.updStop r fun y => { y with wear := y.wear.upd i {} g }

@[simp] theorem Fabric.updWear_wearOf (g : LinkWear → LinkWear) : (f.updWear r i g).wearOf r i = g (f.wearOf r i) := by
  simp [Fabric.wearOf, Fabric.updWear]

theorem Fabric.repairWires_wearOf (bridge : Bool) (failed : List Nat) :
    ((f.repairWires r i bridge failed).1.wearOf r i).spares = (mapWires bridge failed (f.wearOf r i).spares).1 := by
  change ((((f.updStop r fun x => { x with wear := _ }).stopU r).wear.get i {}).spares) = _
  rw [Fabric.updStop_stop_self, NMap.get_put_self]
  rfl

/-- A training direction fails an idle period: after three attempts bring-up stops (18 R395, R403). -/
def Fabric.trainFailed (o : Nat) (t : Nat) : Fabric :=
  let g := f.updWear r o fun w => { w with phase := 0, attempt := w.attempt + 1 }
  if (f.wearOf r o).attempt + 1 ≥ 3 then g.bootStop 0x04 (dieOfStop t) (t * 16 + o) else g

theorem Fabric.trainFailed_wearOf (o t : Nat) : (f.trainFailed r o t).wearOf r o =
    { f.wearOf r o with phase := 0, attempt := (f.wearOf r o).attempt + 1 } := by
  unfold Fabric.trainFailed
  dsimp only
  split <;> exact f.updWear_wearOf r o _

theorem Fabric.trainFailed_stops (o t : Nat) (h : 3 ≤ (f.wearOf r o).attempt + 1) :
    f.trainFailed r o t = (f.updWear r o fun w => { w with phase := 0, attempt := w.attempt + 1 }).bootStop 0x04
      (dieOfStop t) (t * 16 + o) := if_pos h

theorem Fabric.trainFailed_tries (o t : Nat) (h : ¬ 3 ≤ (f.wearOf r o).attempt + 1) : (f.trainFailed r o t).boot = f.boot := by
  rw [Fabric.trainFailed, if_neg h]
  rfl

/-- The pattern period of a direction ends: the wires of its input are repaired (18 R394). -/
def Fabric.patternEnds (o : Nat) (bridge : Bool) (failed : List Nat) : Fabric :=
  (f.repairWires r o bridge failed).1.updWear r o fun w =>
    { w with phase := 1, unmapped := (f.repairWires r o bridge failed).2 }

theorem Fabric.patternEnds_wearOf (o : Nat) (bridge : Bool) (failed : List Nat) :
    ((f.patternEnds r o bridge failed).wearOf r o).phase = 1 ∧
    ((f.patternEnds r o bridge failed).wearOf r o).spares = (mapWires bridge failed (f.wearOf r o).spares).1 ∧
    ((f.patternEnds r o bridge failed).wearOf r o).unmapped = (mapWires bridge failed (f.wearOf r o).spares).2 := by
  rw [Fabric.patternEnds, Fabric.updWear_wearOf]
  exact ⟨rfl, f.repairWires_wearOf .., rfl⟩

/-- A direction whose idle period is good comes up, and bring-up goes on once every ring link has (18 R395). -/
def Fabric.trainUp (o t x : Nat) : Fabric :=
  let up := (f.updWear r o fun w => { w with phase := 0 }).linkEnters t o .up x
  if up.allUp then up.bootStep 6 else up

theorem Fabric.trainUp_up (o t x : Nat) : ((f.trainUp r o t x).txOf t o).state = .up ∧
    ((f.trainUp r o t x).txOf t o).nextSeq = 0 ∧ ((f.trainUp r o t x).txOf t o).retry = [] ∧
    (f.trainUp r o t x).nis = f.nis := by
  have htx := (f.updWear r o fun w => { w with phase := 0 }).linkEnters_txOf t o .up x
  have hnis := (f.updWear r o fun w => { w with phase := 0 }).linkEnters_nis t o .up x
  unfold Fabric.trainUp
  dsimp only
  split <;> exact ⟨congrArg (·.state) htx, congrArg (·.nextSeq) htx, congrArg (·.retry) htx, hnis⟩

end

section
variable {s : State} {t o x : Nat} {failed : List Nat} {good : Bool}

/-- A training output of the fabric, at bring-up step 5. -/
def trains (f : Fabric) (t o : Nat) : Prop :=
  f.live = true ∧ f.time.aligned = true ∧ f.boot.latch = 5 ∧ f.boot.fail = false ∧ t < nStops f.variant ∧ o < 4 ∧
    (f.txOf t o).state = .training

/-- LINK_TRAIN_PHASE_END: which period ends is kept with the wires of the input at the other end. -/
theorem gives_linkTrainPhaseEnd (h : trains s.fab t o) {r : Nat} (hr : s.fab.nbr t o = r) {w : LinkWear}
    (hw : s.fab.wearOf r o = w) :
    gives (.linkTrainPhaseEnd t o failed good x) s
      (if w.phase == 0 then s.fab.patternEnds r o (s.fab.bridge t o) failed
      else if good && !w.unmapped then s.fab.trainUp r o t x
      else s.fab.trainFailed r o t) := by
  subst hr hw
  obtain ⟨hlive, haligned, hlatch, hfail, ht, ho, htrain⟩ := h
  exact gives_when (c := .linkTrainPhaseEnd t o failed good x) (s := s)
    (b := fun f => f.live && f.time.aligned && f.boot.latch == 5 && !f.boot.fail && t < nStops f.variant
      && o < 4 && (f.txOf t o).state == .training) rfl (by simp [hlive, haligned, hlatch, hfail, ht, ho, htrain])

end

section
variable {p : Prog} {w : Word}

/-- A word that finds the FIFO full sets the overflow bit (18 R404). -/
theorem Prog.write_full (h : 256 ≤ p.fifo.length) : p.write w = { p with ovf := true } :=
  if_pos (Nat.sub_eq_zero_of_le h)

theorem Prog.write_fourth (h : p.fifo.length < 256) {a b c : Word} (hp : p.part = [a, b, c]) :
    p.write w = { p with part := [], fifo := p.fifo ++ [w ++ c ++ b ++ a] } := by
  rw [Prog.write, if_neg (by unfold Prog.free; omega), hp]

theorem Prog.write_part (h : p.fifo.length < 256) (hp : p.part.length < 3) : p.write w = { p with part := p.part ++ [w] } := by
  rw [Prog.write, if_neg (by unfold Prog.free; omega)]
  match hl : p.part, hp with
  | [], _ | [_], _ | [_, _], _ => rfl

end

/-- Settles O30: the phase kept with the wires says which period ends; each outcome is one branch of the step. -/
theorem trainingAndProgram : Obligations.TrainingAndProgram := by
  refine ⟨fun s t o x failed good hlive haligned hlatch hfail ht ho htrain => ?train, fun s w hlive => ?prog⟩
  case train =>
    intro r w m
    have h := gives_linkTrainPhaseEnd (x := x) (failed := failed) (good := good)
      ⟨hlive, haligned, hlatch, hfail, ht, ho, htrain⟩ (show s.fab.nbr t o = r from rfl)
      (show s.fab.wearOf r o = w from rfl)
    refine ⟨fun hp => ?pattern, fun hp hbad => ?failed, fun hp hgood hmapped => ?up⟩
    case pattern =>
      rw [if_pos (beq_iff_eq.2 hp)] at h
      obtain ⟨hphase, hspares, hunmapped⟩ := s.fab.patternEnds_wearOf r o (s.fab.bridge t o) failed
      exact h.answers ⟨hphase, hspares, hunmapped, rfl⟩
    case failed =>
      rw [if_neg (mt beq_iff_eq.1 hp), if_neg (by rcases hbad with hb | hb <;> simp [hb])] at h
      have hw := s.fab.trainFailed_wearOf r o t
      refine h.answers ⟨congrArg (·.phase) hw, congrArg (·.attempt) hw, ?_, fun h3 => ?_⟩
      · rcases Decidable.em (3 ≤ w.attempt + 1) with h3 | h3
        · rw [s.fab.trainFailed_stops r o t h3]
          exact ⟨fun _ => h3, fun _ => rfl⟩
        · rw [s.fab.trainFailed_tries r o t h3, hfail]
          simp [h3]
      · rw [s.fab.trainFailed_stops r o t h3]
        exact ⟨rfl, hlatch⟩
    case up =>
      rw [if_neg (mt beq_iff_eq.1 hp), if_pos (by simpa [hgood] using hmapped)] at h
      exact h.answers (s.fab.trainUp_up r o t x)
  case prog =>
    have h : gives (.fmuProgWrite w) s _ := gives_onBus (·.progWrite w) rfl hlive
    exact h.answers ⟨rfl, Prog.write_full, fun hl a b c => Prog.write_fourth hl, Prog.write_part⟩

end Sys2Proof.Machine
end

section
/-! SUPPORT. The path of a fault from its unit to the FMU's log (16 R353-R362). -/

namespace Sys2Proof.Machine

/-! ## The record in a FAULT packet (03 R74) -/

theorem ofBytesLE_toBytesLE (n k : Nat) : ofBytesLE (toBytesLE n k) = n % 256 ^ k := by
  induction k generalizing n with
  | zero => simp [toBytesLE, ofBytesLE, Nat.mod_one]
  | succ k ih =>
    rw [toBytesLE, ofBytesLE, ih, Nat.pow_succ', Nat.mod_mul, BitVec.toNat_ofNat]

theorem ofBytesLE_toBytesLE_toNat {w k : Nat} (hw : w = 8 * k) (b : BitVec w) : ofBytesLE (toBytesLE b.toNat k) = b.toNat := by
  subst hw
  have hb : b.toNat < 256 ^ k := by
    rw [show 256 = 2 ^ 8 from rfl, ← Nat.pow_mul]
    exact b.isLt
  rw [ofBytesLE_toBytesLE, Nat.mod_eq_of_lt hb]

/-- The bytes of a 512-bit word, as an area, spell the word. -/
theorem areaBits_toBytesLE (b : BitVec 512) : areaBits (toBytesLE b.toNat 64) = b := by
  rw [areaBits, List.take_of_length_le (Nat.le_of_eq (toBytesLE_length ..)), ofBytesLE_toBytesLE_toNat (by decide) b,
    BitVec.ofNat_toNat, BitVec.setWidth_eq]

theorem faultOf_faultArea (r : FaultRec) : faultOf (faultArea r) = r := by
  rw [faultOf, faultArea, areaBits_toBytesLE]
  dsimp only [HAppend.hAppend]
  simp (disch := decide) only [extract_append_low, extract_append_high, extract_all, Nat.reduceSub]

/-! ## A fault leaves its unit (16 R353; 06 R134) -/

section
variable (f : Fabric) (p : Nat)

/-- A packet's first flit goes onto the port's link, and the packet is counted there (19 R406); the stop at the link's
other end has not received it. -/
theorem Fabric.sendPacket_sent (x : Packet) (dir io : Nat) (h : Header) {g : Fabric}
    (hg : (f.sendPacket p x dir).niCount p io h = g) :
    (∃ z, (g.ni p).tx.retry = (f.ni p).tx.retry ++ [z] ∧ z.d = Header.toBits x.hdr ++ Packet.headPay x) ∧
    (g.ni p).flt = (f.ni p).flt ∧ (g.ni p).inj.ccMgt = (f.ni p).inj.ccMgt ∧ g.fmu = f.fmu ∧ g.stops = f.stops := by
  subst hg
  simp only [Fabric.niCount, Fabric.sendPacket, Fabric.sendNew, Fabric.updRx, Fabric.setRx, Fabric.setTx, Fabric.tx,
    Fabric.updNi_ni_self]
  exact ⟨⟨_, rfl, rfl⟩, trivial, trivial, rfl, rfl⟩

/-- The oldest fault of an NI leaves its queue, and the credit pays for it. -/
theorem Fabric.takeFlt_ni : (f.takeFlt (.ni p)).ni p = { f.ni p with
    flt := { (f.ni p).flt with waiting := (f.ni p).flt.waiting.drop 1 }
    inj := { (f.ni p).inj with ccMgt := (f.ni p).inj.ccMgt - 65536 } } := by
  simp [Fabric.takeFlt, Fabric.updFlt, Fabric.spendMgt]

/-- The header of a FAULT packet that an NI injects: the port it is resolved to and the epoch. -/
def Fabric.faultHeader (r : FaultRec) (rp : Nat) : Header :=
  Header.seal { (faultPkt (f.node p) p r).hdr with rport := BitVec.ofNat 10 rp, epoch := f.epoch }

theorem Fabric.niFault_goes {u : UnitId} {r : FaultRec} {rp dir : Nat} {fwd : Bool}
    (hr : f.resolve p (faultPkt (f.node p) p r).hdr = .go rp fwd dir) (hd : dir ≠ 3) :
    f.niFault p u r = ((f.takeFlt u).sendPacket p { faultPkt (f.node p) p r with hdr := f.faultHeader p r rp } dir).niCount
      p 0 (f.faultHeader p r rp) := by
  unfold Fabric.niFault
  extract_lets _ x
  rw [show f.resolve p x.hdr = .go rp fwd dir from hr]
  simp only [beq_eq_false_iff_ne.2 hd]
  rfl

theorem Fabric.takeFlt_ni_kept : (f.takeFlt (.ni p)).fmu = f.fmu ∧ (f.takeFlt (.ni p)).stops = f.stops := ⟨rfl, rfl⟩

/-- A fault that leaves through its own NI: the packet is on the link to the stop, and the credit is spent. -/
theorem Fabric.niFault_sends {r : FaultRec} {rp dir : Nat} {fwd : Bool} {h : Fabric} (hh : f.niFault p (.ni p) r = h)
    (hr : f.resolve p (faultPkt (f.node p) p r).hdr = .go rp fwd dir) (hd : dir ≠ 3) :
    let y : Packet := { faultPkt (f.node p) p r with hdr := f.faultHeader p r rp }
    (∃ z, (h.ni p).tx.retry = (f.ni p).tx.retry ++ [z] ∧ z.d = Header.toBits y.hdr ++ Packet.headPay y) ∧
    (h.ni p).flt.waiting = (f.ni p).flt.waiting.drop 1 ∧ (h.ni p).inj.ccMgt = (f.ni p).inj.ccMgt - 65536 ∧
    h.fmu = f.fmu ∧ h.stops = f.stops := by
  intro y
  obtain ⟨hz, hflt, hcredit, hfmu, hstops⟩ := Fabric.sendPacket_sent _ p y dir 0 _ ((f.niFault_goes p hr hd).symm.trans hh)
  obtain ⟨hfmu', hstops'⟩ := f.takeFlt_ni_kept p
  rw [f.takeFlt_ni p] at hz hflt hcredit
  exact ⟨hz, congrArg FaultQ.waiting hflt, hcredit, hfmu.trans hfmu', hstops.trans hstops'⟩

end

section
variable {s : State} {r : FaultRec} {rest : List FaultRec}

/-- A unit of the fabric that may send its oldest fault. -/
def maySend (f : Fabric) (u : UnitId) (r : FaultRec) (rest : List FaultRec) : Prop :=
  f.moving = true ∧ f.fmu.prog.open_ = true ∧ 65536 ≤ f.mgtCredit u ∧ (f.fltOf u).waiting = r :: rest

theorem gives_send {u : UnitId} {g : Fabric → Fabric} (h : maySend s.fab u r rest) (hc : exec (.faultSend u) s =
    s.run fun f => f.when (f.moving && f.fmu.prog.open_ && f.mgtCredit u ≥ 65536) g) : gives (.faultSend u) s (g s.fab) := by
  obtain ⟨hm, ho, hc', -⟩ := h
  exact gives_when hc (by simp [hm, ho, hc'])

theorem gives_faultSend_ni {p : Nat} (h : maySend s.fab (.ni p) r rest) (hp : s.fab.mgtPortFree p = true) :
    gives (.faultSend (.ni p)) s (s.fab.niFault p (.ni p) r) := by
  have ⟨_, _, _, hw⟩ := h
  have hg := gives_send h rfl
  simpa only [hw, hp, if_true] using hg

theorem gives_faultSend_slice {d : Nat} (h : maySend s.fab (.slice d) r rest) (hp : s.fab.mgtPortFree (slicePort d) = true) :
    gives (.faultSend (.slice d)) s (s.fab.niFault (slicePort d) (.slice d) r) := by
  have ⟨_, _, _, hw⟩ := h
  have hg := gives_send h rfl
  simpa only [hw, hp, if_true] using hg

theorem gives_faultSend_stop {t : Nat} (h : maySend s.fab (.stop t) r rest) :
    gives (.faultSend (.stop t)) s (s.fab.stopFault t r) := by
  have ⟨_, _, _, hw⟩ := h
  have hg := gives_send h rfl
  simpa only [hw] using hg

end

/-! ## It reaches the FMU (13 R297; 16 R353) -/

theorem QPkt.packet_hdr (q : QPkt) : q.packet.hdr = q.hdr := by
  unfold QPkt.packet packetOf
  dsimp only
  split
  · split <;> rfl
  · rfl

/-- A packet taken from a receive buffer owes its credits; the FMU's state is as it was. -/
theorem Fabric.freePkt_fmu (f : Fabric) (p v : Nat) (q : QPkt) : (f.freePkt (.ni p) v q).fmu = f.fmu := by
  unfold Fabric.freePkt Fabric.owe
  split <;> rfl

/-- A FAULT packet that heads the first buffer of the FMU's port is delivered. -/
theorem fault_delivers {f : Fabric} {q : QPkt} {rest : List QPkt} (hv : (f.ni fmuPort).vq.get 0 [] = q :: rest)
    (ht : q.tailIn = true) (hk : q.hdr.kind = 11) (hc : Header.checks q.hdr = true) (hw : q.truncated = false) :
    delivers f fmuPort (fun q => q.hdr.kind.toNat == kFault) q
      ((f.setVcQ (.ni fmuPort) 0 rest).freePkt (.ni fmuPort) 0 q) := by
  refine ⟨?_, hc, hw⟩
  rw [show List.range 12 = 0 :: List.range' 1 11 from rfl, takeVc, hv]
  simp only [ht, hk, Bool.true_and]
  rfl

theorem Fabric.fmuTakes_arrived {f : Fabric} {q : QPkt} {rest : List QPkt} (hv : (f.ni fmuPort).vq.get 0 [] = q :: rest)
    (ht : q.tailIn = true) (hk : q.hdr.kind = 11) (hc : Header.checks q.hdr = true) (hw : q.truncated = false)
    (hb : badHeader q.hdr = false) :
    f.fmuTakes.fmu.fault.arrived = f.fmu.fault.arrived ++ [faultOf q.packet.area] := by
  rw [Fabric.fmuTakes, Fabric.niTake_delivered _ (fault_delivers hv ht hk hc hw), QPkt.packet_hdr, hb]
  change ((f.setVcQ (.ni fmuPort) 0 rest).freePkt (.ni fmuPort) 0 q).fmu.fault.arrived ++ _ = _
  rw [Fabric.freePkt_fmu]
  rfl

/-! ## It is evaluated, forced and shown (16 R356, R361, R362) -/

theorem gives_faultEvaluate {s : State} {r : FaultRec} {rest : List FaultRec} (hl : s.fab.live = true)
    (ha : s.fab.fmu.fault.arrived = r :: rest) : gives .faultEvaluate s
      ((s.fab.updFmu fun m => { m with fault := { m.fault with arrived := rest } }).evaluate r) := by
  have h := gives_when (c := .faultEvaluate) (s := s) (b := Fabric.live) rfl hl
  simpa only [ha] using h

/-- A log with room takes the entry, with the log's sequence number (16 R363). -/
theorem FaultState.log1_room {q : FaultState} (le : LogEntry) (h : q.log.length < 1024) :
    (q.log1 le).log = q.log ++ [{ le with seq := q.logSeq }] ∧ (q.log1 le).logSeq = q.logSeq + 1 := by
  rw [FaultState.log1, if_pos h]
  exact ⟨rfl, rfl⟩

theorem Fabric.evaluate_logs {f : Fabric} (r : FaultRec) (h : f.fmu.fault.log.length < 1024) :
    ∃ le, (f.evaluate r).fmu.fault.log = f.fmu.fault.log ++ [le] ∧ { le.rec_ with sev := r.sev } = r ∧
      le.tabSev = (f.sevWord r.fkind.toNat).extractLsb' 0 3 ∧ le.seq = f.fmu.fault.logSeq ∧
      (f.evaluate r).fmu.fault.logSeq = f.fmu.fault.logSeq + 1 := by
  obtain ⟨q, le, w, eff, hlog, hseq, hrec, htab, he⟩ := f.evaluate_eq r
  obtain ⟨hadd, hnext⟩ := q.log1_room le (hlog ▸ h)
  have hj := Fabric.severityActs_judged (f.updFmu fun m => { m with fault := q.log1 le }) r w eff
  rw [← he] at hj
  refine ⟨{ le with seq := q.logSeq }, ?_, hrec, htab, hseq, ?_⟩
  · exact (congrArg (·.2.1) hj).trans (hlog ▸ hadd)
  · exact (congrArg (·.2.2) hj).trans (hseq ▸ hnext)

theorem Fabric.force_fmu {f : Fabric} {w : Word} {k : FaultKind} (hw : bit w 31 = true)
    (hk : kindOfCode (fld w 7 0) = some k) (hc : fmuKinds.contains k = true) :
    (f.force .fmu w).fmu.fault.arrived = f.fmu.fault.arrived ++ [mkFault 0 0 k.code k.cls true (fld w 11 8) f.time.fcc] := by
  simp only [Fabric.force, hw, hk, hc]
  rfl

/-- A forced fault of an NI is held while the package is stopped, and waits to be sent otherwise. -/
theorem Fabric.force_ni {f : Fabric} {w : Word} {p : Nat} {k : FaultKind} (hw : bit w 31 = true)
    (hk : kindOfCode (fld w 7 0) = some k) (hc : (niKinds (f.kind p)).contains k = true) :
    ((f.force (.ni p) w).ni p).flt = if f.fmu.stop.stopped then { (f.ni p).flt with held := (f.ni p).flt.held ++ [w] }
      else (f.ni p).flt.push f.fmu.prog.open_ (mkFault 3 p k.code k.cls true (fld w 11 8) (f.fccOf (dieOfPort p))) := by
  rw [Fabric.force, if_neg (by simp [hw]), hk]
  dsimp only
  rw [if_pos hc, Fabric.updFlt, Fabric.updNi_ni_self]
  rfl

theorem gives_fabErrPulseEnd {s : State} {t : Nat} (hl : s.fab.live = true) (hp : s.fab.fmu.pin.pulseEnd = some t)
    (hd : s.fab.due t = true) : gives .fabErrPulseEnd s
      ((s.fab.reach t).updFmu fun m => { m with pin := { m.pin with pulseEnd := none } }) := by
  have h := gives_when (c := .fabErrPulseEnd) (s := s) (b := Fabric.live) rfl hl
  simpa only [hp, hd, if_true] using h

/-- A unit whose fault-force register takes a write (16 R361). -/
def UnitId.canForce (f : Fabric) : UnitId → Bool
  | .ni p => f.kind p != 0 && f.powered p
  | .stop t => t < nStops f.variant
  | _ => true

/-- A write on the management bus that is taken where a condition holds. -/
theorem gives_onBus_of {c : Instr} {s : State} {ok : Fabric → Bool} (g : Fabric → Fabric)
    (hc : exec c s = s.run fun f => f.onBus (ok f) g) (hl : s.fab.live = true) (hok : ok s.fab = true) :
    gives c s ((g s.fab).busReply 0 false) := by
  rw [gives, hc, State.run_eq, hok, Fabric.onBus_live g hl]

/-- Settles O24: a fault is followed from the unit that sends it to the log. -/
theorem faultPath : Obligations.FaultPath := by
  refine ⟨fun s p rp dir fwd r rest hm ho hc hp hw => ?ni,
    fun s d r rest hm ho hc hp hw => gives_faultSend_slice ⟨hm, ho, hc, hw⟩ hp,
    fun s t r rest hm ho hc hw => gives_faultSend_stop ⟨hm, ho, hc, hw⟩, faultOf_faultArea,
    fun f q rest hv ht hk hc hw hb => Fabric.fmuTakes_arrived hv ht hk hc hw hb,
    fun s r rest hl ha => ⟨gives_faultEvaluate hl ha, fun hroom => (gives_faultEvaluate hl ha).answers
      (Fabric.evaluate_logs (f := s.fab.updFmu fun m => { m with fault := { m.fault with arrived := rest } }) r hroom)⟩,
    fun s u w hl hni hstop => ?force, fun f w k hw hk hc => Fabric.force_fmu hw hk hc,
    fun f w p k hw hk hc => ⟨fun hs => ?held, fun hs ho => ?waits⟩, fun s t hl hp hd => ?pulse⟩
  case ni =>
    intro x y hr hd
    have h := gives_faultSend_ni ⟨hm, ho, hc, hw⟩ hp
    obtain ⟨hsent, hflt, hcredit, hfmu, hstops⟩ := s.fab.niFault_sends p rfl hr hd
    refine h.answers ⟨?_, ?_, hsent, hfmu, hstops⟩
    · exact hflt.trans (congrArg (List.drop 1) hw)
    · exact (congrArg (· + 65536) hcredit).trans (Nat.sub_add_cancel hc)
  case force =>
    refine gives_onBus_of (c := .faultForce u w) (ok := fun f => UnitId.canForce f u) (·.force u w) rfl hl ?_
    cases u with
    | ni p =>
      obtain ⟨hk, hp⟩ := hni p rfl
      simp [UnitId.canForce, hk, hp]
    | stop t => simpa [UnitId.canForce] using hstop t rfl
    | slice _ => rfl
    | fmu => rfl
  case held => rw [Fabric.force_ni hw hk hc, if_pos hs]
  case waits =>
    rw [Fabric.force_ni hw hk hc, if_neg (by simp [hs]), FaultQ.push, ho]
    rfl
  case pulse =>
    refine (gives_fabErrPulseEnd hl hp hd).answers ⟨rfl, ?_⟩
    rw [Fabric.updFmu_fmu, Fabric.reach_fmu]

end Sys2Proof.Machine
end

section
/-! SUPPORT. The parts of a swap, as to the turn and the pending stop (15 R343; 10 R233; 17 R373-R379; 18 R400). -/

namespace Sys2Proof.Machine

/-- What the units do as they swap leaves the turn, the pending stop and the pending freeze alone. -/
def Fabric.turnAndStop (f : Fabric) : Turn × StopCtl := (f.fmu.turn, f.fmu.stop)

theorem Fabric.turnAndStop_of_fmu {f g : Fabric} (h : f.fmu = g.fmu) : f.turnAndStop = g.turnAndStop :=
  congrArg (fun m : Fmu => (m.turn, m.stop)) h

section
variable (f : Fabric)

theorem Fabric.updStop_kept (s : Nat) (g : Stop → Stop) : (f.updStop s g).turnAndStop = f.turnAndStop := rfl
theorem Fabric.setBypass_kept (s : Nat) (on : Bool) : (f.setBypass s on).turnAndStop = f.turnAndStop := rfl
theorem Fabric.raiseFmu_kept (k : FaultKind) (info : Nat) : (f.raiseFmu k info).turnAndStop = f.turnAndStop := rfl
theorem Fabric.recordSpare_kept (r : Nat × Nat × Nat × Word) : (f.recordSpare r).turnAndStop = f.turnAndStop := rfl
theorem Fabric.dropSpares_kept (keep : Nat × Nat × Nat × Word → Bool) :
    (f.updFmu fun m => { m with spares := m.spares.filter keep }).turnAndStop = f.turnAndStop := rfl
theorem Fabric.takeDown_kept (s o : Nat) : (f.takeDown s o).turnAndStop = f.turnAndStop := rfl
theorem Fabric.awaitTraining_kept (s o : Nat) : (f.awaitTraining s o).turnAndStop = f.turnAndStop := rfl

/-! ## Trees (10 R233) -/

theorem Fabric.tearDown_fmu (tree : Nat) : (f.tearDown tree).fmu = f.fmu := by
  unfold Fabric.tearDown
  extract_lets r f1 forget f1' f2
  have h1 : f1.fmu = f.fmu := Fabric.forEach_keeps Fabric.fmu (by intro g s; split <;> rfl) f _
  have h2 : f2.fmu = f.fmu := (Fabric.forEach_keeps Fabric.fmu (by intros; rfl) f1' _).trans h1
  clear_value r f2
  cases r with
  | none => exact h2
  | some t =>
    dsimp only
    split <;> exact h2

theorem Fabric.dropRegranted_fmu : f.dropRegranted.fmu = f.fmu := Fabric.forEach_keeps Fabric.fmu tearDown_fmu f _

theorem Fabric.markTree_fmu (tree b : Nat) (on : Bool) : (f.markTree tree b on).fmu = f.fmu :=
  Fabric.forEach_keeps Fabric.fmu (by intro g s; split <;> rfl) f _

theorem Fabric.treeBroken_kept (tree info : Nat) :
    ((f.markTree tree 29 true).raiseFmu .treeBroken info).turnAndStop = f.turnAndStop := by
  rw [Fabric.raiseFmu_kept, Fabric.turnAndStop_of_fmu (f.markTree_fmu tree 29 true)]

theorem Fabric.breakTrees_kept (links : List (Nat × Nat)) (gone : List Nat) :
    (f.breakTrees links gone).turnAndStop = f.turnAndStop :=
  Fabric.forEach_keeps Fabric.turnAndStop (fun g (x : Nat × Nat) => g.treeBroken_kept x.1 (x.1 * 2 ^ 32 + x.2)) f _

/-! ## What units reload -/

theorem Fabric.renewOwn_fmu (s : Nat) : (f.renewOwn s).fmu = f.fmu := by
  refine Fabric.forEach_keeps Fabric.fmu (fun g key => ?_) f _
  refine (Fabric.forEach_keeps Fabric.fmu (fun h q => ?_) _ _).trans (rfl : (g.setStopQ s key _).fmu = g.fmu)
  split
  · exact h.stopAnswer_fmu s _
  · rfl

theorem Fabric.admitAt_kept (old : Fabric) : (f.admitAt old).turnAndStop = f.turnAndStop :=
  Fabric.forEach_keeps Fabric.turnAndStop (by intros; rfl) f _

/-! ## Substitutions (17 R373-R379) -/

theorem Fabric.keepSpare_kept (r : Nat × Nat × Nat × Word) : (f.keepSpare r).turnAndStop = f.turnAndStop := by
  unfold Fabric.keepSpare
  split <;> rfl

theorem Fabric.retrainNow_kept (s : Nat) (w : Word) : (f.retrainNow s w).turnAndStop = f.turnAndStop := by
  rw [Fabric.retrainNow, Fabric.keepSpare_kept, Fabric.takeDown_kept, Fabric.breakTrees_kept]

/-- Every link of a stop is withdrawn. -/
theorem Fabric.takeDownAll_kept (s : Nat) (dirs : List Nat) :
    (f.forEach dirs fun g o => g.takeDown s o).turnAndStop = f.turnAndStop :=
  Fabric.forEach_keeps Fabric.turnAndStop (fun g o => g.takeDown_kept s o) f _

theorem Fabric.awaitAll_kept (ends : List (Nat × Nat)) :
    (f.forEach ends fun g x => g.awaitTraining x.1 x.2).turnAndStop = f.turnAndStop :=
  Fabric.forEach_keeps Fabric.turnAndStop (fun g (x : Nat × Nat) => g.awaitTraining_kept x.1 x.2) f _

theorem Fabric.bypassNow_kept (s : Nat) (w : Word) : (f.bypassNow s w).turnAndStop = f.turnAndStop := by
  unfold Fabric.bypassNow
  dsimp only
  rw [Fabric.keepSpare_kept, Fabric.awaitAll_kept, Fabric.setBypass_kept, Fabric.updStop_kept, Fabric.takeDownAll_kept,
    Fabric.breakTrees_kept]

theorem Fabric.restoreNow_kept (s : Nat) : (f.restoreNow s).turnAndStop = f.turnAndStop := by
  unfold Fabric.restoreNow
  dsimp only
  rw [Fabric.dropSpares_kept, Fabric.takeDownAll_kept, Fabric.setBypass_kept, Fabric.breakTrees_kept]

/-- The answer of a request that a gateway holds. -/
theorem Fabric.egAnswer_fmu (p : Nat) (x : Packet) (st : Status) : (f.egAnswer p x st).fmu = f.fmu := by
  unfold Fabric.egAnswer Fabric.niRefuse Fabric.answer?
  dsimp only
  split
  · rfl
  split
  · rfl
  split <;> split <;> rfl

theorem Fabric.gatewayNow_kept (p : Nat) (w : Word) : (f.gatewayNow p w).turnAndStop = f.turnAndStop := by
  unfold Fabric.gatewayNow
  extract_lets old held f1 f2 f3
  have h2 : f2.fmu = f.fmu := Fabric.forEach_keeps Fabric.fmu (fun g (x : Packet × Nat) => g.egAnswer_fmu old x.1 .timeout) f1 held
  exact (f3.recordSpare_kept _).trans (Fabric.turnAndStop_of_fmu h2)

theorem Fabric.act_kept (a : Action) : (f.act a).turnAndStop = f.turnAndStop := by
  unfold Fabric.act
  split
  case h_3 => exact f.retrainNow_kept _ _
  case h_6 =>
    split
    · exact f.bypassNow_kept _ _
    · exact f.restoreNow_kept _
  case h_7 => exact f.gatewayNow_kept _ _
  all_goals rfl

end

end Sys2Proof.Machine
end

section
/-! SUPPORT. The swap of a turn as a scheduled event, and the turn's outcome (15 R342, R343, R349). -/

namespace Sys2Proof.Machine

/-! ## The swap (15 R343) -/

/-- The turn once it has swapped: the epoch and the turn number go on. -/
def Turn.afterSwap (t : Turn) : Turn :=
  { t with epoch := t.epoch + 1, first := false, tseq := t.tseq + 1, writable := false, checked := false, swapped := true }

section
variable (f : Fabric)

theorem Fabric.swapCfg_kept : f.swapCfg.turnAndStop = (f.fmu.turn.afterSwap, f.fmu.stop) := rfl

/-- The swap as far as the staged actions: what units reload and what the actions do. -/
def Fabric.swapUnits (f : Fabric) : Fabric :=
  let f0 := f.dropRegranted
  let f1 := f0.swapCfg
  let f2 := f1.forEach f1.niPorts fun g p => g.reloadNi f0 p
  let f3 := f2.forEach f2.stopIds fun g s => (g.reloadStop f0 s).renewOwn s
  let f4 := f3.admitAt f0
  let f5 := f0.fmu.drain.actions.foldl Fabric.act f4
  f5.forEach (f5.portIds.filter fun p => f5.kind p == 1) fun g p => g.startEgress p

theorem Fabric.swapUnits_kept : f.swapUnits.turnAndStop = (f.fmu.turn.afterSwap, f.fmu.stop) := by
  unfold Fabric.swapUnits
  extract_lets f0 f1 f2 f3 f4 f5
  have h1 : f1.turnAndStop = (f.fmu.turn.afterSwap, f.fmu.stop) := by
    rw [f0.swapCfg_kept, show f0.fmu = f.fmu from f.dropRegranted_fmu]
  have h2 : f2.turnAndStop = f1.turnAndStop := Fabric.forEach_keeps Fabric.turnAndStop (by intros; rfl) f1 _
  have h3 : f3.turnAndStop = f2.turnAndStop := Fabric.forEach_keeps Fabric.turnAndStop
    (fun g s => Fabric.turnAndStop_of_fmu ((g.reloadStop f0 s).renewOwn_fmu s)) f2 _
  have h4 : f4.turnAndStop = f3.turnAndStop := f3.admitAt_kept f0
  have h5 : f5.turnAndStop = f4.turnAndStop := Fabric.forEach_keeps Fabric.turnAndStop Fabric.act_kept f4 _
  have h6 := Fabric.forEach_keeps Fabric.turnAndStop (g := fun g p => g.startEgress p) (by intros; rfl) f5
    (f5.portIds.filter fun p => f5.kind p == 1)
  exact h6.trans (h5.trans (h4.trans (h3.trans (h2.trans h1))))

theorem Fabric.speedNow_fmu : f.speedNow.fmu = f.fmu :=
  Fabric.forEach_keeps Fabric.fmu (fun g s => Fabric.forEach_keeps Fabric.fmu (by intros; rfl) g _) f _

theorem Fabric.reapAll_fmu : f.reapAll.fmu = f.fmu := Fabric.forEach_keeps Fabric.fmu Fabric.reap_fmu f _

/-- The turn, the pending stop, and the staged actions. -/
def Fabric.swapState (f : Fabric) : (Turn × StopCtl) × List Action := (f.turnAndStop, f.fmu.drain.actions)

theorem Fabric.digestEvent_swapState (cause : BitVec 2) : (f.digestEvent cause).swapState = f.swapState := rfl

/-- A swap renews the turn's own state, empties the list of staged actions, and leaves a pending stop alone. -/
theorem Fabric.swapNow_swapState : f.swapNow.swapState = ((f.fmu.turn.afterSwap, f.fmu.stop), []) := by
  unfold Fabric.swapNow
  extract_lets wakes quiesced f0 f1 f2 f3 f4 f5 f6 f7 f7' f8 f9 g
  have h6 : f6.turnAndStop = (f.fmu.turn.afterSwap, f.fmu.stop) := f.swapUnits_kept
  clear_value f6
  have h7 : f7'.swapState = ((f.fmu.turn.afterSwap, f.fmu.stop), []) := congrArg (·, []) h6
  have h8 : f8.fmu = f7'.fmu := Fabric.forEach_keeps Fabric.fmu (by intros; rfl) f7' _
  have h9 : f9.fmu = f8.fmu := by
    unfold f9
    split
    · rw [Fabric.speedNow_fmu, Fabric.setQuiesce_fmu]
    · rfl
  have hg : g.swapState = f7'.swapState := by
    rw [Fabric.digestEvent_swapState]
    exact congrArg (fun m : Fmu => ((m.turn, m.stop), m.drain.actions)) ((f9.reapAll_fmu.trans h9).trans h8)
  split
  · exact (g.digestEvent_swapState 2).trans (hg.trans h7)
  · exact hg.trans h7

end

theorem Turn.armed_passed {t : Turn} (h : t.armed = true) : t.deadlinePassed = true ∧ t.disarming = false := by
  simp only [Turn.armed, Bool.and_eq_true, Bool.not_eq_true'] at h
  obtain ⟨⟨⟨-, hpassed⟩, hdisarming⟩, -⟩ := h
  exact ⟨hpassed, hdisarming⟩

section
variable {f : Fabric}

/-- A turn that is armed has its swap scheduled, and where no stop and no freeze is pending nothing else. -/
theorem Fabric.scheduled_swap (ht : f.fmu.turn.armed = true) (hs : f.fmu.stop.stopAt = none)
    (hz : f.fmu.stop.freezeAt = none) : f.scheduled = [(f.fmu.turn.swapAt, .swap)] := by
  obtain ⟨hpassed, hdisarming⟩ := Turn.armed_passed ht
  simp [Fabric.scheduled, Turn.arming, Fabric.disarmAwaited, ht, hs, hz, hpassed, hdisarming]

/-- Once it has swapped nothing is. -/
theorem Fabric.scheduled_afterSwap {t : Turn} (ht : f.fmu.turn = t.afterSwap) (ha : t.armed = true)
    (hs : f.fmu.stop.stopAt = none) (hz : f.fmu.stop.freezeAt = none) : f.scheduled = [] := by
  obtain ⟨-, hdisarming⟩ := Turn.armed_passed ha
  simp [Fabric.scheduled, Turn.arming, Fabric.disarmAwaited, Turn.armed, Turn.afterSwap, ht, hs, hz, hdisarming]

/-- An armed turn swaps at its instant, with nothing else there (02 R54). -/
theorem Fabric.instant_swap (ht : f.fmu.turn.armed = true) (hs : f.fmu.stop.stopAt = none)
    (hz : f.fmu.stop.freezeAt = none) : f.instant f.fmu.turn.swapAt = (f.reach f.fmu.turn.swapAt).swapNow := by
  have h := (f.reach f.fmu.turn.swapAt).swapNow_swapState
  rw [Fabric.reach_fmu] at h
  refine Fabric.instant_single (Fabric.scheduled_swap ht hs hz) ?_
  have hturn : (f.reach f.fmu.turn.swapAt).swapNow.fmu.turn = f.fmu.turn.afterSwap := congrArg (·.1.1) h
  have hstop : (f.reach f.fmu.turn.swapAt).swapNow.fmu.stop = f.fmu.stop := congrArg (·.1.2) h
  exact Fabric.scheduled_afterSwap hturn ht (hstop ▸ hs) (hstop ▸ hz)

end

/-! ## The outcome (15 R342, R349) -/

/-- The result of a turn: its number, its status and M. -/
def Turn.resultWords (t : Turn) (st : Status) : List Word :=
  [mkWord [(20, statusCode st), (0, t.tseq.toNat)], BitVec.ofNat 32 t.m.toNat, BitVec.ofNat 32 (t.m.toNat / 2 ^ 32)]

section
variable (f : Fabric) (st : Status) (info : BitVec 48)

/-- The slices of dies show that no unit is armed. -/
def Fabric.idleSlices (ds : List Nat) : Fabric := f.forEach ds fun g d => g.updDie d fun x => { x with arm := .idle }

theorem Fabric.idleSlices_kept (ds : List Nat) :
    (f.idleSlices ds).fmu = f.fmu ∧ (f.idleSlices ds).nis = f.nis ∧ (f.idleSlices ds).stops = f.stops :=
  ⟨Fabric.forEach_keeps Fabric.fmu (by intros; rfl) f _, Fabric.forEach_keeps Fabric.nis (by intros; rfl) f _,
    Fabric.forEach_keeps Fabric.stops (by intros; rfl) f _⟩

/-- What is published, before the running TURN completes. -/
def Fabric.publishTurn : Fabric :=
  let f1 := f.updTurn fun t => { t with sealed_ := false, quiescing := false, lost := false }
  (f1.idleSlices f1.dieIds).updRes fun r => { r with turn := r.turn.publish (f.fmu.turn.resultWords st) }

theorem Fabric.publishTurn_fmu : (f.publishTurn st).fmu = { f.fmu with
    turn := { f.fmu.turn with sealed_ := false, quiescing := false, lost := false }
    res := { f.fmu.res with turn := f.fmu.res.turn.publish (f.fmu.turn.resultWords st) } } := by
  rw [Fabric.publishTurn, Fabric.updRes_fmu, (Fabric.idleSlices_kept _ _).1]
  rfl

theorem Fabric.publishTurn_kept : (f.publishTurn st).nis = f.nis ∧ (f.publishTurn st).stops = f.stops :=
  (Fabric.idleSlices_kept _ _).2

/-- The outcome is published, and what the end of an op leaves alone stays so when the TURN completes. -/
theorem Fabric.turnOutcome_publishes {β : Type} (part : Fabric → β)
    (hpart : ∀ g eid, part (g.finish .fmu eid st info) = part g) : part (f.turnOutcome st info) = part (f.publishTurn st) := by
  change part (match (f.publishTurn st).running .fmu ocTurn with
    | some e => (f.publishTurn st).finish .fmu e.eid st info
    | none => f.publishTurn st) = _
  cases (f.publishTurn st).running .fmu ocTurn with
  | none => rfl
  | some e => exact hpart _ e.eid

end

section
variable {s : State}

/-- A swap is due: everything scheduled up to its instant takes effect. -/
theorem gives_turnSwap (hm : s.fab.moving = true) (hs : s.fab.fmu.turn.sealed_ = true) (hw : s.fab.fmu.turn.swapped = false)
    (hd : s.fab.dueAt s.fab.fmu.turn.swapAt = true) : gives .turnSwap s (s.fab.instant s.fab.fmu.turn.swapAt) :=
  gives_when (c := .turnSwap) (s := s) (b := fun f => f.moving && f.fmu.turn.sealed_ && !f.fmu.turn.swapped &&
    f.dueAt f.fmu.turn.swapAt) rfl (by simp [hm, hs, hw, hd])

theorem gives_turnOutcome_ok (hl : s.fab.live = true) (hs : s.fab.fmu.turn.sealed_ = true)
    (hw : s.fab.fmu.turn.swapped = true) : gives .turnOutcome s
      (s.fab.unseal.turnOutcome .ok (BitVec.ofNat 48 (s.fab.fmu.turn.tseq.toNat * 2 ^ 32))) := by
  have h := gives_when (c := .turnOutcome) (s := s) (b := fun f => f.live && f.fmu.turn.sealed_) rfl (by simp [hl, hs])
  simpa only [hw, if_true] using h

theorem gives_turnOutcome_failed {st : Status} {info : BitVec 48} (hl : s.fab.live = true)
    (hs : s.fab.fmu.turn.sealed_ = true) (hw : s.fab.fmu.turn.swapped = false) (hf : s.fab.fmu.turn.fail = some (st, info))
    (hu : s.fab.undisarmed = []) : gives .turnOutcome s ((s.fab.unseal.raiseFmu .turnFail
      (s.fab.fmu.turn.m.toNat + statusCode st * 2 ^ 44)).turnOutcome st info) := by
  have h := gives_when (c := .turnOutcome) (s := s) (b := fun f => f.live && f.fmu.turn.sealed_) rfl (by simp [hl, hs])
  simpa [hw, hf, hu] using h

/-- Automatic repair fills the program with its three ops (16 R359). -/
theorem gives_autoRepair (hm : s.fab.moving = true) (ho : s.fab.fmu.prog.open_ = true) (ha : s.fab.fmu.fault.auto = true)
    (hr : s.fab.fmu.fault.repairs ≠ []) (hp : s.fab.fmu.prog.fifo = []) (hq : s.fab.fmu.chan.queue = [])
    (hs : s.fab.fmu.turn.sealed_ = false) (hw : s.fab.fmu.turn.writable = true) : gives .autoRepair s
      (s.fab.draw.updFmu fun m => { m with prog := { m.prog with fifo :=
        [ownOp ocCheck 0, ownOp ocTurn (s.fab.msc + 2), ownOp ocDrain (s.fab.epoch.toNat * 2 ^ 95 +
          (Config.freeValue 16 s.fab.freeCtr).toNat * 2 ^ 64)] } }) :=
  gives_when (c := .autoRepair) (s := s) (b := fun f => f.moving && f.fmu.prog.open_ && f.fmu.fault.auto &&
    !f.fmu.fault.repairs.isEmpty && f.fmu.prog.fifo.isEmpty && f.fmu.chan.queue.isEmpty && !f.fmu.turn.sealed_ &&
    f.fmu.turn.writable) rfl (by simp [hm, ho, ha, hr, hp, hq, hs, hw])

end

/-- Settles O21: the outcome, the swap at its instant, and the ops of automatic repair. -/
theorem turnOutcome : Obligations.TurnOutcome := by
  refine ⟨fun f st info => ?outcome, fun s hl hs hw => gives_turnOutcome_ok hl hs hw,
    fun s st info hl hs hw hf hu => gives_turnOutcome_failed hl hs hw hf hu,
    fun s hm hs hw hd => ⟨gives_turnSwap hm hs hw hd, fun ha hstop hfreeze => ?swap⟩,
    fun s hm ho ha hr hp hq hs hw => (gives_autoRepair hm ho ha hr hp hq hs hw).answers
      ⟨_, (Config.freeValue 16 s.fab.freeCtr).isLt, rfl⟩⟩
  case outcome =>
    intro g
    have hturn : g.fmu.turn = (f.publishTurn st).fmu.turn :=
      f.turnOutcome_publishes st info (·.fmu.turn) fun g eid => g.finish_fmu_turn eid st info
    have hres : g.fmu.res = (f.publishTurn st).fmu.res :=
      f.turnOutcome_publishes st info (·.fmu.res) fun g eid => g.finish_fmu_res eid st info
    have hnis : g.nis = (f.publishTurn st).nis :=
      f.turnOutcome_publishes st info Fabric.nis fun g eid => g.finish_fmu_nis eid st info
    have hstops : g.stops = (f.publishTurn st).stops :=
      f.turnOutcome_publishes st info Fabric.stops fun g eid => g.finish_fmu_stops eid st info
    obtain ⟨hnis', hstops'⟩ := f.publishTurn_kept st
    rw [hturn, hres, f.publishTurn_fmu st]
    exact ⟨rfl, rfl, rfl, rfl, rfl, rfl, hnis.trans hnis', hstops.trans hstops'⟩
  case swap =>
    have h := gives_turnSwap hm hs hw hd
    rw [Fabric.instant_swap ha hstop hfreeze] at h
    have hswap := (s.fab.reach s.fab.fmu.turn.swapAt).swapNow_swapState
    rw [Fabric.reach_fmu] at hswap
    have hturn := congrArg (·.1.1) hswap
    exact h.answers ⟨congrArg Turn.swapped hturn, congrArg Turn.tseq hturn, congrArg Turn.epoch hturn,
      congrArg Turn.writable hturn, congrArg (·.2) hswap⟩

end Sys2Proof.Machine
end
